-- ==== Sys2Proof/Word.lean ====
section
/-! DEFINITION. The words of the gate: characters, two-character and four-character numbers. -/

namespace Sys2Proof

/-- The 8 data bits of a character (section 0.8). -/
abbrev Byte := BitVec 8

/-- A number of two characters: details, lengths of time in the Station Table, statistics (R12, R143). -/
abbrev Half := BitVec 16

/-- A number of four characters: the Line Clock and what is stamped from it (R150). -/
abbrev Word := BitVec 32

end Sys2Proof
end

