-- ==== Sys2Proof/Syntax.lean ====
section
/-! DEFINITION. The commands of the block: one constructor for each row of spec/opcode_table.json. -/

namespace Sys2Proof

/-- The two serial ports (section 0.2). -/
inductive Port where
  | uplink
  | segment
  deriving DecidableEq, Repr

/-- A character as a receiver keeps it (R26): its mark bit (1 makes a head character) and its value. -/
structure LineChar where
  head  : Bool
  value : Byte
  deriving DecidableEq, Repr

/-- What a receiver is told of a character: its start bit, which ends the silence (R27, R46, R48, R52), or the whole
character at its stop bit (R26). DESIGN CHOICE, log 4. -/
inductive LineMoment where
  | startBit
  | character (c : LineChar)
  deriving DecidableEq, Repr

/-- The commands. A row's operands are what its occasion does not fix: the character taken, the port, the wrong echo.
The management commands carry none: their arguments stand in the Management Request Slot (R40, R170; log 1). -/
inductive Instr where
  /-- RESET_ASSERTED (R155, R159). -/
  | resetAsserted
  /-- RESET_RELEASED (R155). -/
  | resetReleased
  /-- INITIALISATION_COMPLETES (R156). -/
  | initialisationCompletes
  /-- UPLINK_FRAME_END (R34, R39): the second CHECK character of an uplink frame is taken, with this value. -/
  | uplinkFrameEnd (value : Byte)
  /-- FRAGMENT_SILENCE (R35): the silence count of this port steps to two inside an open frame. -/
  | fragmentSilence (port : Port)
  /-- HEAD_ARRIVAL (R32, R89): a head character with this value (DEST) is taken on the segment. -/
  | headArrival (value : Byte)
  /-- SEGMENT_FRAME_END (R34, R37): the second CHECK character of a segment frame is taken, with this value. -/
  | segmentFrameEnd (value : Byte)
  /-- JABBER (R49). -/
  | jabber
  /-- LINE_QUIET (R47). -/
  | lineQuiet
  /-- TRANSMISSION_COMPLETE (R54, R84): the echo of the second CHECK character compares equal. -/
  | transmissionComplete
  /-- ECHO_FAULT (R54, R55): the echo taken differs (`some`), or an echo is missing (`none`). -/
  | echoFault (heard : Option LineChar)
  /-- ABORT_END (R56). -/
  | abortEnd
  /-- DEADLINE_EXPIRY (R88). -/
  | deadlineExpiry
  /-- TOKEN_EXPIRY (R122). -/
  | tokenExpiry
  /-- UPLINK_TRANSMISSION_COMPLETE (R44). -/
  | uplinkTransmissionComplete
  /-- TAKE (R66). -/
  | take
  /-- IDENTIFY (R174). -/
  | identify
  /-- GET_STATE (R175). -/
  | getState
  /-- SET_STATE (R157, R176). -/
  | setState
  /-- READ_POLICY (R168). -/
  | readPolicy
  /-- WRITE_POLICY (R164). -/
  | writePolicy
  /-- WRITE_ENTRY (R14). -/
  | writeEntry
  /-- CLEAR_ENTRY (R18). -/
  | clearEntry
  /-- READ_ENTRIES (R23). -/
  | readEntries
  /-- READ_NEXT (R23). -/
  | readNext
  /-- FIND_ENTRY (R180). -/
  | findEntry
  /-- RELEASE (R22). -/
  | release
  /-- CLEAR_STATS (R22). -/
  | clearStats
  /-- TAKE_EVENTS (R146). -/
  | takeEvents
  /-- READ_TIME (R152). -/
  | readTime
  /-- SET_TIME (R153). -/
  | setTime
  /-- ABANDON (R101). -/
  | abandon
  /-- SOFT_RESET (R160). -/
  | softReset
  /-- BAD_COMMAND (R172). -/
  | badCommand
  /-- CHARACTER_TAKEN (R26, R33): this port's receiver hears a start bit or takes a character. -/
  | characterTaken (port : Port) (what : LineMoment)
  /-- CHARACTER_TIME (R150). -/
  | characterTime
  deriving DecidableEq, Repr

end Sys2Proof
end

