-- ==== Sys2Proof/Decode.lean ====
section
/-! DEFINITION. What a word spells by the bits of the opcode table: the table gives no row any bits. -/

namespace Sys2Proof

/-- The command a word spells. No row of spec/opcode_table.json has fixed bits or fields, so none does. -/
def decodeTableWord (_nbits _w : Nat) : Option Instr := none

end Sys2Proof
end

