-- ==== Sys2Proof/Config.lean ====
section
/-! DEFINITION. What the part fixes once and for all (capacities and identity, R174) and the free values:
constants with no body, of which nothing can be proved. -/

namespace Sys2Proof.Config

/-- The Down Queue holds up to 4 frames (R64). -/
def downCapacity : Nat := 4

/-- The Up Queue holds up to 8 frames (R130). -/
def upCapacity : Nat := 8

/-- A publication is admitted only if the total stays at 6 or less (R137). -/
def publicationLimit : Nat := 6

/-- The Event Queue holds up to 32 records (R144). -/
def eventCapacity : Nat := 32

/-- The Station Table holds 64 entries (R1). -/
def tableCapacity : Nat := 64

/-- The silence counter stops at 63 (R46). -/
def silenceTop : Nat := 63

/-- Vendor code 46h (R174). -/
def vendorCode : Byte := 0x46

/-- Part code 0040h (R174). -/
def partCode : Half := 0x0040

/-- Revision 1 (R174). -/
def revision : Byte := 1

/-- FREE VALUE. Which of several steps that come at the same moment is taken first, where the queue of commands does
not say (R36, R124, R127, R144: "either may be taken first"). Log 3, log 11. -/
opaque firstTaken : Nat → Nat

/-- FREE VALUE. How many more characters of its frame the uplink transmitter has sent after one more segment character
time: the spec gives the position as state (section 2.6) and no step that moves it. Log 10. -/
opaque uplinkCharacters : Nat → Nat

end Sys2Proof.Config
end

