-- ==== Sys2Proof/Machine/State.lean ====
section
/-! DEFINITION. The state of the gate as plain data, and the machine right after reset. -/

namespace Sys2Proof.Machine

/-- The device state held by Gate Control (R154). RESET is the state exactly while the RESET line is asserted. -/
inductive DeviceState where
  | reset | init | standby | run | drain
  deriving DecidableEq, Repr

/-- The policy mode (R162). -/
inductive Mode where
  | enforce | observe
  deriving DecidableEq, Repr

/-- The mode of a rate generator (R61). -/
inductive RateMode where
  | normal | fractional
  deriving DecidableEq, Repr

/-- The setting of a rate generator (R61). -/
structure Rate where
  mode : RateMode
  step : Half
  deriving DecidableEq, Repr

/-- The Policy Record (R163). -/
structure Policy where
  gateAddress      : Byte
  gapTime          : Byte
  jabberLimit      : Half
  strikeThreshold  : Byte
  probeInterval    : Byte
  broadcastAllowed : Bool
  mode             : Mode
  uplinkRate       : Rate
  segmentRate      : Rate
  deriving DecidableEq, Repr

/-- The controller's decision to carry a station's traffic (R5). -/
inductive Admin where
  | disabled | enabled
  deriving DecidableEq, Repr

/-- The configuration of an entry (R5). A field that is absent for the entry's classes holds 0 (log 20). -/
structure Configuration where
  outer          : Byte
  inner          : Byte
  admin          : Admin
  polled         : Bool
  token          : Bool
  maxRequest     : Byte
  maxResponse    : Byte
  deadline       : Half
  tokenCap       : Half
  publishDivider : Byte
  deriving DecidableEq, Repr

/-- The status of a valid entry (R7). -/
inductive Status where
  | enabled | barred | disabled
  deriving DecidableEq, Repr

/-- The turnaround values (R11); `none` is absent. -/
structure Turnarounds where
  last : Option Half
  min  : Option Half
  max  : Option Half
  deriving DecidableEq, Repr

/-- The nine statistics counters (R12). -/
structure Statistics where
  exchanges : Half
  silent    : Half
  damaged   : Half
  rejected  : Half
  late      : Half
  refused   : Half
  published : Half
  thinned   : Half
  reclaims  : Half
  deriving DecidableEq, Repr

/-- The outcome kinds (R13). -/
inductive OutcomeKind where
  | answered | silent | damaged | rejected | late | refused | reclaimed | jabber
  deriving DecidableEq, Repr

/-- A write or clear held for the engaged entry (R19). -/
inductive PendingUpdate where
  | write (c : Configuration)
  | delete
  deriving DecidableEq, Repr

/-- A valid entry: configuration, runtime fields (R7 to R13), pending update (R19). The outcome set is one bit for each
kind, at the place R194 gives it. -/
structure Entry where
  config         : Configuration
  status         : Status
  strikes        : Nat
  probeCountdown : Nat
  dividerCount   : Nat
  turnarounds    : Turnarounds
  statistics     : Statistics
  outcomes       : Byte
  lastOutcome    : Option OutcomeKind
  pending        : Option PendingUpdate
  deriving DecidableEq, Repr

/-- The Station Table (R1): an empty entry is `none`. -/
abbrev Table := Vector (Option Entry) 64

/-- The kinds of damage a framer records (R33 to R36). -/
inductive Damage where
  | fragment | badLen | check | truncated
  deriving DecidableEq, Repr

/-- A frame open in a framer (section 2.4): the characters kept so far from DEST on (their number is the position), the
running check register, and the damage kind if one is recorded. It is discarding exactly when BAD_LEN is recorded. -/
structure OpenFrame where
  kept     : List Byte
  register : Half
  damage   : Option Damage
  deriving DecidableEq, Repr

/-- The fields of an intact frame as a framer hands it on (R37); LEN is the length of the payload. -/
structure Frame where
  dest    : Byte
  code    : BitVec 4
  src     : Byte
  payload : List Byte
  deriving DecidableEq, Repr

/-- What a framer hands on when a frame ends (R37). -/
inductive Ended where
  | intact (f : Frame)
  | damaged (d : Damage)
  deriving DecidableEq, Repr

/-- The uplink receiver (R27, R38): the assembly buffer, the silence count, and whether a character is in progress. -/
structure UplinkReceiver where
  frame        : Option OpenFrame
  silence      : Nat
  midCharacter : Bool
  deriving DecidableEq, Repr

/-- The segment receiver state (R45). -/
inductive ReceiverState where
  | lineIdle
  | inFrame (f : OpenFrame)
  | muted
  deriving DecidableEq, Repr

/-- The segment receiver with its silence and activity counters (R45, R46, R48). -/
structure SegmentReceiver where
  state        : ReceiverState
  silence      : Nat
  activity     : Nat
  midCharacter : Bool
  deriving DecidableEq, Repr

/-- The kinds of frame that travel downstream to the segment (R29, R64). -/
inductive DownKind where
  | request | send | grant
  deriving DecidableEq, Repr

/-- A frame in the Down Queue (R64). -/
structure DownFrame where
  kind    : DownKind
  dest    : Byte
  payload : List Byte
  deriving DecidableEq, Repr

/-- A frame as rewritten for the segment (R79). -/
structure LineFrame where
  dest    : Byte
  kind    : DownKind
  src     : Byte
  payload : List Byte
  deriving DecidableEq, Repr

/-- The segment transmitter (section 3.3) with its echo comparator (R54). In ON_LINE `sent` counts the character times
since the frame began, so `sent` is the position of the character in progress and the characters before it are
finished; `compared` counts the echoes compared equal. In ABORTING `left` is what is still to be sent, the character in
progress first, and `held` a frame handed over meanwhile (R52). -/
inductive SegmentTransmitter where
  | idle
  | gapWait (f : LineFrame)
  | onLine (f : LineFrame) (sent compared : Nat)
  | aborting (left : List LineChar) (held : Option LineFrame)
  deriving DecidableEq, Repr

/-- The kinds of frame the gate sends upstream (R29, R135, R137). -/
inductive UpKind where
  | response | publish | returned | substitute | mrsp
  deriving DecidableEq, Repr

/-- The marks a reply may carry (R44, R130); the uplink-rate mark keeps the rate its own write set (R63). -/
inductive Mark where
  | softReset
  | uplinkRate (r : Rate)
  deriving DecidableEq, Repr

/-- A frame held in the Up Queue (R130). -/
structure UpFrame where
  kind    : UpKind
  dest    : Byte
  src     : Byte
  aux     : Bool
  payload : List Byte
  mark    : Option Mark
  deriving DecidableEq, Repr

/-- The two engines that reserve slots (R131). -/
inductive Engine where
  | exchange | management
  deriving DecidableEq, Repr

/-- The Up Queue (R130, R131, R134). The waiting requests of R133 are computed (log 14). -/
structure UpQueue where
  frames         : List UpFrame
  exchangeHeld   : Bool
  managementHeld : Bool
  preference     : Engine
  deriving DecidableEq, Repr

/-- The uplink transmitter (section 2.6): idle, or sending these characters, each with its mark bit (with the attention
flag and the check it chose at the beginning), so many of which are sent. -/
inductive UplinkTransmitter where
  | idle
  | sending (wire : List LineChar) (position : Nat)
  deriving DecidableEq, Repr

/-- The open states of the Engagement (R82); IDLE is the absence of an engagement. SETTLING keeps whether its end sets
the Last-Closed record (R102, R103). -/
inductive EngagementState where
  | sending | awaiting | receiving | holding
  | settling (setsLastClosed : Bool)
  deriving DecidableEq, Repr

/-- The open Engagement and its record (R80, R83). -/
structure Engagement where
  state       : EngagementState
  kind        : DownKind
  index       : Option (Fin 64)
  outer       : Byte
  inner       : Byte
  probe       : Bool
  timeOpened  : Word
  headArrival : Option Word
  budget      : Option Half
  seen        : Option Half
  deriving DecidableEq, Repr

/-- The Last-Closed record (R103). -/
structure LastClosed where
  index : Fin 64
  inner : Byte
  time  : Word
  deriving DecidableEq, Repr

/-- The event kinds (section 8.3). -/
inductive EventKind where
  | refused | downFull | uplinkDamaged | uplinkWrongKind | mgmtOverrun | silent | damaged | rejected | late | stray
  | barred | wouldBar | released | echoFault | jabber | abandoned | tokenClamped | reclaimed | publishDropped
  | publishBadDest | updateApplied
  deriving DecidableEq, Repr

/-- An event record (R143). -/
structure EventRecord where
  kind      : EventKind
  timestamp : Word
  index     : Option (Fin 64)
  outer     : Option Byte
  detail    : Half
  deriving DecidableEq, Repr

/-- The Event Queue, oldest record first, and the lost count (R144, R145). -/
structure EventQueue where
  records : List EventRecord
  lost    : Byte
  deriving DecidableEq, Repr

/-- The steps that fall due when a character time has passed and its counter stands one short of its threshold. -/
inductive Threshold where
  | deadline | token | jabber | quiet | segmentFragment | uplinkFragment | missingEcho | abortEnd
  deriving DecidableEq, Repr

/-- The state of the gate. -/
structure State where
  /-- Gate Control (R154). -/
  device            : DeviceState
  /-- The Policy Record (R163). -/
  policy            : Policy
  /-- The setting the uplink rate generator runs at (R61, R63). -/
  uplinkRate        : Rate
  /-- The setting the segment rate generator runs at (R61, R62). -/
  segmentRate       : Rate
  /-- The uplink receiver (R38). -/
  uplink            : UplinkReceiver
  /-- The uplink transmitter (R42). -/
  uplinkTransmitter : UplinkTransmitter
  /-- The segment receiver (R45). -/
  segment           : SegmentReceiver
  /-- The segment transmitter (R52). -/
  transmitter       : SegmentTransmitter
  /-- The Down Queue, oldest first (R64). -/
  downQueue         : List DownFrame
  /-- The Management Request Slot: the payload of the request it holds (R40). -/
  slot              : Option (List Byte)
  /-- The Up Queue (R130). -/
  up                : UpQueue
  /-- The Station Table (R1). -/
  table             : Table
  /-- The Table Pointer (R23). -/
  tablePointer      : Fin 64
  /-- The Engagement (R82); `none` is IDLE. -/
  engagement        : Option Engagement
  /-- The watch counter (R83). -/
  watch             : Nat
  /-- The token counter (R109). -/
  token             : Nat
  /-- The Last-Closed record (R103). -/
  lastClosed        : Option LastClosed
  /-- The Event Queue (R144). -/
  events            : EventQueue
  /-- The Line Clock (R150). -/
  clock             : Word
  /-- MODEL'S OWN. Threshold steps whose character time has passed and which have not been taken (log 3). -/
  owed              : List Threshold
  /-- MODEL'S OWN. Counts the free values used. -/
  freeCount         : Nat
  /-- MODEL'S OWN. The commands waiting, first in, first out. -/
  pending           : List Instr
  deriving DecidableEq, Repr

/-- The gate has no fault that stops it: what goes wrong is answered, posted or counted (R12, R143, R173). No meaning
raises one; that is safe. -/
inductive Fault where
  deriving DecidableEq, Repr

/-- Why a command has no meaning. -/
inductive Refusal where
  /-- Raised by an arm of `exec` whose command is not modelled yet (none is left); safe: the machine stops. -/
  | notModelled (mnemonic : String)
  deriving DecidableEq, Repr

/-- NORMAL with step 1014: 115,200 bit/s (R61). -/
def Rate.default : Rate := { mode := .normal, step := 1014 }

/-- The Policy Record's defaults (R163). -/
def Policy.default : Policy :=
  { gateAddress := 254, gapTime := 4, jabberLimit := 300, strikeThreshold := 3, probeInterval := 8,
    broadcastAllowed := true, mode := .enforce, uplinkRate := Rate.default, segmentRate := Rate.default }

/-- The machine right after hard reset, RESET still asserted (R159). -/
def State.reset : State :=
  { device := .reset
    policy := Policy.default
    uplinkRate := Rate.default
    segmentRate := Rate.default
    uplink := { frame := none, silence := 0, midCharacter := false }
    uplinkTransmitter := .idle
    segment := { state := .lineIdle, silence := 0, activity := 0, midCharacter := false }
    transmitter := .idle
    downQueue := []
    slot := none
    up := { frames := [], exchangeHeld := false, managementHeld := false, preference := .management }
    table := Vector.replicate 64 none
    tablePointer := 0
    engagement := none
    watch := 0
    token := 0
    lastClosed := none
    events := { records := [], lost := 0 }
    clock := 0
    owed := []
    freeCount := 0
    pending := [] }

end Sys2Proof.Machine
end

