-- ==== Sys2Proof/Machine/Operands.lean ====
section
/-! DEFINITION. The forms of what crosses the links: numbers of several characters, the check, frames as characters,
code values, and the records of chapter 12. -/

namespace Sys2Proof.Machine

/-! ### Numbers -/

/-- A saturating increase by one: statistics and the lost count (section 0.8, R12, R145). -/
def satInc {n : Nat} (x : BitVec n) : BitVec n := if x = BitVec.allOnes n then x else x + 1

/-- The high character of a two-character number (R192). -/
def highByte (h : Half) : Byte := h.extractLsb' 8 8

/-- The low character of a two-character number (R192). -/
def lowByte (h : Half) : Byte := h.extractLsb' 0 8

/-- A two-character number, high character first (R192). -/
def half (h l : Byte) : Half := h ++ l

/-- The two characters of a number (R192). -/
def halfBytes (h : Half) : List Byte := [highByte h, lowByte h]

/-- A four-character number, high character first (R192). -/
def word (a b c d : Byte) : Word := (half a b ++ half c d : BitVec 32)

/-- The four characters of a number (R192). -/
def wordBytes (w : Word) : List Byte :=
  [w.extractLsb' 24 8, w.extractLsb' 16 8, w.extractLsb' 8 8, w.extractLsb' 0 8]

/-- A small code in the low character of a detail (R195). -/
def codeDetail (b : Byte) : Half := half 0 b

/-- A yes/no character as sent: 0 or 1 (R192). -/
def flagByte (b : Bool) : Byte := if b then 1 else 0

/-- A yes/no character as read: 0 is no, any other value yes (R192). -/
def readFlag (b : Byte) : Bool := b != 0

/-- An index as a character; FFh when absent (R143). -/
def indexByte (i : Option (Fin 64)) : Byte :=
  match i with
  | some j => BitVec.ofNat 8 j.val
  | none => 0xFF

/-- A character as an entry index, 0 to 63. -/
def toIndex (b : Byte) : Option (Fin 64) := if h : b.toNat < 64 then some ⟨b.toNat, h⟩ else none

/-! ### The check (R31) -/

/-- One bit shifted into the check register (R31 step 2). -/
def crcBit (r : Half) (bit : Bool) : Half :=
  if r.msb != bit then (r <<< 1) ^^^ 0x1021 else r <<< 1

/-- One character shifted in, most significant bit first (R31 step 2). -/
def crcByte (r : Half) (b : Byte) : Half :=
  [7, 6, 5, 4, 3, 2, 1, 0].foldl (fun r i => crcBit r (b.getLsbD i)) r

/-- The check over a run of characters: the register starts at FFFFh and is not inverted at the end (R31). -/
def crc (bs : List Byte) : Half := bs.foldl crcByte 0xFFFF

/-! ### Kind codes (R29, R191) -/

/-- The kind code of a downstream frame (R29). -/
def DownKind.code : DownKind → BitVec 4
  | .request => 0
  | .send => 2
  | .grant => 4

/-- The kind code of an upstream frame (R29). -/
def UpKind.code : UpKind → BitVec 4
  | .response => 1
  | .publish => 3
  | .returned => 5
  | .substitute => 6
  | .mrsp => 8

/-- The KIND character: code in bits 0 to 3, aux flag in bit 6, attention flag in bit 7 (R191). -/
def kindByte (code : BitVec 4) (aux attention : Bool) : Byte :=
  (BitVec.ofBool attention ++ BitVec.ofBool aux ++ (0 : BitVec 2) ++ code : BitVec 8)

/-- The kind code read from a received KIND character: the four low bits (R191). -/
def kindCode (b : Byte) : BitVec 4 := b.extractLsb' 0 4

/-- A kind code in the low character of a detail (R195). -/
def kindDetail (code : BitVec 4) : Half := code.setWidth 16

/-! ### Frames as characters (R28) -/

/-- The characters of a frame from DEST to the last of PAYLOAD (R28). -/
def frameBody (dest kind src : Byte) (payload : List Byte) : List Byte :=
  [dest, kind, src, BitVec.ofNat 8 payload.length] ++ payload

/-- A whole frame: its body and the two CHECK characters, high first (R28, R31). -/
def withCheck (body : List Byte) : List Byte := body ++ halfBytes (crc body)

/-- The body of a frame on the segment: the aux and attention flags are 0 (R79). -/
def LineFrame.body (f : LineFrame) : List Byte := frameBody f.dest (kindByte f.kind.code false false) f.src f.payload

/-- The characters of a frame with their mark bits, on either link (R28): the first one, DEST, is the only head
character. -/
def frameChars (body : List Byte) : List LineChar :=
  match withCheck body with
  | [] => []
  | d :: rest => ⟨true, d⟩ :: rest.map (fun b => ⟨false, b⟩)

/-- The characters of a frame on the segment (R53). -/
def LineFrame.chars (f : LineFrame) : List LineChar := frameChars f.body

/-- The length of a frame on the line, LEN + 6 (R28). -/
def LineFrame.length (f : LineFrame) : Nat := f.payload.length + 6

/-- The characters of an upstream frame as the transmitter sends it, with the attention flag it chose (R28, R43). -/
def UpFrame.wire (f : UpFrame) (attention : Bool) : List LineChar :=
  frameChars (frameBody f.dest (kindByte f.kind.code f.aux attention) f.src f.payload)

/-- What an abort still sends of a frame whose character at position `sent` is in progress (R56): that character, then
the complement of each CHECK character not yet begun. -/
def abortTail (f : LineFrame) (sent : Nat) : List LineChar :=
  match f.chars[sent]? with
  | none => []
  | some inProgress =>
    if sent ≤ f.payload.length + 3 then
      let check := crc (f.body.take (sent + 1))
      [inProgress, ⟨false, ~~~ highByte check⟩, ⟨false, ~~~ lowByte check⟩]
    else if sent = f.payload.length + 4 then
      [inProgress, ⟨false, ~~~ lowByte (crc f.body)⟩]
    else
      [inProgress]

/-! ### Code values (section 12.5) -/

/-- The reasons of REFUSED, REJECTED and SUBSTITUTE (section 12.5). -/
inductive Reason where
  | badDestination | unknown | disabled | barred | notPolled | tokenDenied | requestTooLong | standby | lineFault
  | abandoned | silent | damaged | wrongSource | wrongKind | overlong | jabber
  deriving DecidableEq, Repr

/-- Reason codes (section 12.5). -/
def Reason.code : Reason → Byte
  | .badDestination => 1
  | .unknown => 2
  | .disabled => 3
  | .barred => 4
  | .notPolled => 5
  | .tokenDenied => 6
  | .requestTooLong => 7
  | .standby => 8
  | .lineFault => 9
  | .abandoned => 10
  | .silent => 11
  | .damaged => 12
  | .wrongSource => 13
  | .wrongKind => 14
  | .overlong => 15
  | .jabber => 16

/-- A reason with the observed flag, as the detail of REFUSED and REJECTED (R195). -/
def Reason.detail (r : Reason) (observed : Bool) : Half := half (flagByte observed) r.code

/-- Damage kind codes (section 12.5). -/
def Damage.code : Damage → Byte
  | .fragment => 1
  | .badLen => 2
  | .check => 3
  | .truncated => 4

/-- Event kind codes (section 12.5). -/
def EventKind.code : EventKind → Byte
  | .refused => 1
  | .downFull => 2
  | .uplinkDamaged => 3
  | .uplinkWrongKind => 4
  | .mgmtOverrun => 5
  | .silent => 6
  | .damaged => 7
  | .rejected => 8
  | .late => 9
  | .stray => 10
  | .barred => 11
  | .wouldBar => 12
  | .released => 13
  | .echoFault => 14
  | .jabber => 15
  | .abandoned => 16
  | .tokenClamped => 17
  | .reclaimed => 18
  | .publishDropped => 19
  | .publishBadDest => 20
  | .updateApplied => 21

/-- The number of an outcome kind as a last outcome (R194). -/
def OutcomeKind.code : OutcomeKind → Byte
  | .answered => 1
  | .silent => 2
  | .damaged => 3
  | .rejected => 4
  | .late => 5
  | .refused => 6
  | .reclaimed => 7
  | .jabber => 8

/-- The value of an outcome kind in the outcome set (R194). -/
def OutcomeKind.bit : OutcomeKind → Byte
  | .answered => 0x01
  | .silent => 0x02
  | .damaged => 0x04
  | .rejected => 0x08
  | .late => 0x10
  | .refused => 0x20
  | .reclaimed => 0x40
  | .jabber => 0x80

/-- Entry status codes (section 12.3.3). -/
def Status.code : Status → Byte
  | .enabled => 1
  | .barred => 2
  | .disabled => 3

/-- Engagement state codes (section 12.5); IDLE is `none`. -/
def engagementCode : Option EngagementState → Byte
  | none => 0
  | some .sending => 1
  | some .awaiting => 2
  | some .receiving => 3
  | some .holding => 4
  | some (.settling _) => 5

/-- Device state codes (section 12.5). RESET and INIT have none, and no reply is built in them (R154, log 19). -/
def DeviceState.code : DeviceState → Byte
  | .reset => 0
  | .init => 0
  | .standby => 0
  | .run => 1
  | .drain => 2

/-- The statuses of a management reply (R173). -/
inductive ReplyStatus where
  | ok | pending | badCommand | badLength | badIndex | badValue | duplicate | wrongState | notFound
  deriving DecidableEq, Repr

/-- Status codes (section 12.5). -/
def ReplyStatus.code : ReplyStatus → Byte
  | .ok => 0
  | .pending => 1
  | .badCommand => 2
  | .badLength => 3
  | .badIndex => 4
  | .badValue => 5
  | .duplicate => 6
  | .wrongState => 7
  | .notFound => 8

/-- RELEASED's detail for PROBE (R195). -/
def releasedByProbe : Half := 1

/-- RELEASED's detail for COMMAND (R195). -/
def releasedByCommand : Half := 2

/-! ### The Policy Record (section 12.3.2) -/

/-- A mode character: 0 is ENFORCE, any other value OBSERVE (R164). -/
def readMode (b : Byte) : Mode := if b = 0 then .enforce else .observe

/-- A mode as sent. -/
def Mode.byte : Mode → Byte
  | .enforce => 0
  | .observe => 1

/-- A rate mode character: 0 is NORMAL, any other value FRACTIONAL (R164). -/
def readRateMode (b : Byte) : RateMode := if b = 0 then .normal else .fractional

/-- A rate mode as sent. -/
def RateMode.byte : RateMode → Byte
  | .normal => 0
  | .fractional => 1

/-- The Policy Record of a WRITE_POLICY's 14 argument characters (section 12.3.2). -/
def readPolicyRecord : List Byte → Option Policy
  | [ga, gap, j1, j0, th, pi, ba, mo, um, u1, u0, sm, s1, s0] =>
    some { gateAddress := ga, gapTime := gap, jabberLimit := half j1 j0, strikeThreshold := th, probeInterval := pi,
           broadcastAllowed := readFlag ba, mode := readMode mo,
           uplinkRate := { mode := readRateMode um, step := half u1 u0 },
           segmentRate := { mode := readRateMode sm, step := half s1 s0 } }
  | _ => none

/-- The characters of a Policy Record (section 12.3.2). -/
def Policy.bytes (p : Policy) : List Byte :=
  [p.gateAddress, p.gapTime] ++ halfBytes p.jabberLimit
    ++ [p.strikeThreshold, p.probeInterval, flagByte p.broadcastAllowed, p.mode.byte, p.uplinkRate.mode.byte]
    ++ halfBytes p.uplinkRate.step ++ [p.segmentRate.mode.byte] ++ halfBytes p.segmentRate.step

/-! ### The entry (section 12.3.3) -/

/-- An admin character: 0 is DISABLED, any other value ENABLED (R178). -/
def readAdmin (b : Byte) : Admin := if b = 0 then .disabled else .enabled

/-- An admin value as sent. -/
def Admin.byte : Admin → Byte
  | .disabled => 0
  | .enabled => 1

/-- The configuration of a WRITE_ENTRY's 12 characters after the index, every field as received (section 12.3.3). -/
def readConfiguration : List Byte → Option Configuration
  | [outer, inner, admin, polled, token, maxReq, maxRsp, d1, d0, c1, c0, divider] =>
    some { outer := outer, inner := inner, admin := readAdmin admin, polled := readFlag polled, token := readFlag token,
           maxRequest := maxReq, maxResponse := maxRsp, deadline := half d1 d0, tokenCap := half c1 c0,
           publishDivider := divider }
  | _ => none

/-- A field that is absent for the classes is not stored: it holds 0 (R5, R14; log 20). -/
def Configuration.stored (c : Configuration) : Configuration :=
  { c with
    deadline := if c.polled then c.deadline else 0
    tokenCap := if c.token then c.tokenCap else 0
    publishDivider := if c.token then c.publishDivider else 0 }

/-- The twelve characters of a configuration (section 12.3.3). -/
def Configuration.bytes (c : Configuration) : List Byte :=
  [c.outer, c.inner, c.admin.byte, flagByte c.polled, flagByte c.token, c.maxRequest, c.maxResponse]
    ++ halfBytes c.deadline ++ halfBytes c.tokenCap ++ [c.publishDivider]

/-- The pending state of an entry record: NONE, WRITE or DELETE (R24). -/
def pendingByte : Option PendingUpdate → Byte
  | none => 0
  | some (.write _) => 1
  | some .delete => 2

/-- A turnaround as read: FFFFh when absent (R11). -/
def turnaroundBytes (t : Option Half) : List Byte := halfBytes (t.getD 0xFFFF)

/-- The nine counters in the record's order (section 12.3.3). -/
def Statistics.bytes (t : Statistics) : List Byte :=
  halfBytes t.exchanges ++ halfBytes t.silent ++ halfBytes t.damaged ++ halfBytes t.rejected ++ halfBytes t.late
    ++ halfBytes t.refused ++ halfBytes t.published ++ halfBytes t.thinned ++ halfBytes t.reclaims

/-- An absent last outcome is sent as 0 (R194). -/
def outcomeByte : Option OutcomeKind → Byte
  | none => 0
  | some k => k.code

/-- The 45 characters of an entry record (R24, R194, section 12.3.3). -/
def entryRecord (i : Fin 64) (e : Option Entry) : List Byte :=
  match e with
  | none => [0, BitVec.ofNat 8 i.val] ++ List.replicate 43 0
  | some e =>
    [1, BitVec.ofNat 8 i.val] ++ e.config.bytes
      ++ [pendingByte e.pending, e.status.code, BitVec.ofNat 8 e.strikes, BitVec.ofNat 8 e.probeCountdown,
          BitVec.ofNat 8 e.dividerCount]
      ++ turnaroundBytes e.turnarounds.last ++ turnaroundBytes e.turnarounds.min ++ turnaroundBytes e.turnarounds.max
      ++ e.statistics.bytes ++ [e.outcomes, outcomeByte e.lastOutcome]

/-! ### The event record (section 12.4) -/

/-- The nine characters of an event record (section 12.4). -/
def EventRecord.bytes (r : EventRecord) : List Byte :=
  [r.kind.code] ++ wordBytes r.timestamp ++ [indexByte r.index, r.outer.getD 0xFF] ++ halfBytes r.detail

/-- The outer address field of an event about an uplink frame with this DEST: absent for 255 (R39, R41). -/
def destAddress (dest : Byte) : Option Byte := if dest = 0xFF then none else some dest

/-! ### Frames the gate builds -/

/-- A SUBSTITUTE: DEST 255, the SRC it answers for, a reason and a two-character detail (R77, R96). -/
def substitute (src : Byte) (r : Reason) (detail : Half) : UpFrame :=
  { kind := .substitute, dest := 0xFF, src := src, aux := false, payload := r.code :: halfBytes detail, mark := none }

/-- A RETURN as sent upstream, with the budget remaining; the aux flag marks a reclaimed phase (R117, R123). -/
def returnFrame (src : Byte) (reclaimed : Bool) (remaining : Nat) : UpFrame :=
  { kind := .returned, dest := 0xFF, src := src, aux := reclaimed,
    payload := halfBytes (BitVec.ofNat 16 remaining), mark := none }

/-- A station's frame rewritten as the RESPONSE from this outer address (R94, R95). -/
def responseFrame (src : Byte) (payload : List Byte) : UpFrame :=
  { kind := .response, dest := 0xFF, src := src, aux := false, payload := payload, mark := none }

/-- The budget of a GRANT: its two payload characters, high first (R74). -/
def budgetOf : List Byte → Half
  | h :: l :: _ => half h l
  | _ => 0

/-! ### Rates (R61) -/

/-- Whether a step lies within its mode's range (P6 of R164). -/
def Rate.inRange (r : Rate) : Bool :=
  match r.mode with
  | .normal => 64 ≤ r.step.toNat && r.step.toNat ≤ 1023
  | .fractional => 2 ≤ r.step.toNat && r.step.toNat ≤ 1023

/-- The bit rate in bit/s: exact in NORMAL as a fraction (numerator, denominator), the average in FRACTIONAL (R61). -/
def Rate.bitsPerSecond (r : Rate) : Nat × Nat :=
  match r.mode with
  | .normal => (1152000, 1024 - r.step.toNat)
  | .fractional => (1125 * r.step.toNat, 1)

end Sys2Proof.Machine
end

