-- ==== Sys2Proof/Machine/Flags.lean ====
section
/-! DEFINITION. The conditions and output lines the gate computes from its state: HOLD, ATTN, SDRV, line quiet, the
totals of the Up Queue, the conditions of the two engines. -/

namespace Sys2Proof.Machine

/-- The ports and engines work in STANDBY, RUN and DRAIN (R38, R60, R140). -/
def DeviceState.works : DeviceState → Bool
  | .reset => false
  | .init => false
  | .standby => true
  | .run => true
  | .drain => true

/-- The ports and engines work (R38, R60, R140). -/
def State.works (s : State) : Bool := s.device.works

/-- A frame may be begun on the segment (R52). -/
def State.maySend (s : State) : Bool := s.device = .run || s.device = .drain

/-- The ATTN output, and the attention flag of a frame that begins now (R147, R43). -/
def State.attn (s : State) : Bool := !s.events.records.isEmpty

/-- The HOLD output (R65). -/
def State.hold (s : State) : Bool :=
  s.device = .reset || s.device = .init || decide (Config.downCapacity ≤ s.downQueue.length)

/-- The transmitter holds the line (section 3.3). -/
def SegmentTransmitter.holdsLine : SegmentTransmitter → Bool
  | .idle => false
  | .gapWait _ => false
  | .onLine _ _ _ => true
  | .aborting _ _ => true

/-- The SDRV output: asserted from the first start bit to the end of the last stop bit sent (R53, R56). -/
def SegmentTransmitter.drives : SegmentTransmitter → Bool
  | .idle => false
  | .gapWait _ => false
  | .onLine f sent _ => decide (sent < f.length)
  | .aborting _ _ => true

/-- The SDRV output (R53, R56, R58). -/
def State.sdrv (s : State) : Bool := s.transmitter.drives

/-- The level of the uplink transmit line UTXD: it rests at 1 while the transmitter is idle (R42, R155); the level inside
a character is none of the state's (log 22). -/
def State.utxd (s : State) : Option Bool :=
  match s.uplinkTransmitter with
  | .idle => some true
  | .sending _ _ => none

/-- The segment line is quiet (R47). -/
def State.lineQuiet (s : State) : Bool := decide (s.policy.gapTime.toNat ≤ s.segment.silence)

/-- The reserved count (R131). -/
def UpQueue.reserved (q : UpQueue) : Nat := q.exchangeHeld.toNat + q.managementHeld.toNat

/-- Frames held plus slots reserved (R131). -/
def UpQueue.total (q : UpQueue) : Nat := q.frames.length + q.reserved

/-- A soft reset is under way: a reply with the SOFT_RESET mark waits or is being sent (R66, R142, R160). -/
def State.softResetUnderWay (s : State) : Bool := s.up.frames.any (fun f => f.mark = some .softReset)

/-- Every condition of R66 except the reservation (R132). -/
def State.exchangeAsks (s : State) : Bool :=
  (s.device = .run || s.device = .standby) && !s.softResetUnderWay && s.engagement.isNone && !s.downQueue.isEmpty
    && !s.up.exchangeHeld

/-- The Exchange Engine's request waits: it asks, and the total stands at 8 (R132, R133; log 14). -/
def State.exchangeWaits (s : State) : Bool := s.exchangeAsks && decide (Config.upCapacity ≤ s.up.total)

/-- The Management Engine asks for a reservation, and waits until it is granted (R132, R169; log 14). -/
def State.managementAsks (s : State) : Bool := s.slot.isSome && !s.up.managementHeld && !s.softResetUnderWay && s.works

/-- The Management Engine is READY: the Slot is occupied and its reservation held (R169). -/
def State.managementReady (s : State) : Bool := s.slot.isSome && s.up.managementHeld && s.works

/-- The index of the engaged entry (R19). -/
def State.engagedIndex (s : State) : Option (Fin 64) :=
  match s.engagement with
  | none => none
  | some g => g.index

/-- The outer address an event takes from an engagement's record: absent for a broadcast SEND (R85, R86). -/
def Engagement.eventOuter (g : Engagement) : Option Byte :=
  match g.index with
  | none => none
  | some _ => some g.outer

/-- The MUTED flag of GET_STATE (R45). -/
def State.mutedFlag (s : State) : Bool := s.segment.state = .muted

/-- The position of the next field of an open frame is that of its second CHECK character (R33, R34). -/
def OpenFrame.atSecondCheck (f : OpenFrame) : Bool :=
  match f.damage, f.kept[3]? with
  | none, some len => decide (f.kept.length = len.toNat + 5)
  | _, _ => false

/-- The segment receiver frames what it hears: it is not MUTED and the transmitter does not hold the line (R26,
R45). -/
def State.segmentFrames (s : State) : Bool :=
  s.works && !s.transmitter.holdsLine && s.segment.state != .muted

/-- The segment receiver has a frame open (R45). -/
def ReceiverState.isInFrame : ReceiverState → Bool
  | .inFrame _ => true
  | _ => false

/-- The occasion of FRAGMENT_SILENCE on the segment: an open frame, and the silence counter about to step to two. -/
def State.segmentFragmentDue (s : State) : Bool :=
  s.segmentFrames && s.segment.state.isInFrame && !s.segment.midCharacter && decide (s.segment.silence = 1)

/-- The character time that brings the silence to two has passed, and the step waits to be taken (log 3). -/
def State.fragmentOwed (s : State) : Bool := s.owed.contains .segmentFragment && s.segmentFragmentDue

end Sys2Proof.Machine
end

