-- ==== Sys2Proof/Machine/Ops.lean ====
section
/-! DEFINITION. The named operations over the queues, the Station Table, the framers and the transmitters, which every
meaning is made of. -/

namespace Sys2Proof.Machine

/-! ### The Event Queue -/

/-- A post: stored with room, counted as lost at a full queue (R144, R145). -/
def EventQueue.post (q : EventQueue) (r : EventRecord) : EventQueue :=
  if q.records.length < Config.eventCapacity then { q with records := q.records ++ [r] }
  else { q with lost := satInc q.lost }

/-- Post an event, stamped with the Line Clock (R144). -/
def State.post (s : State) (kind : EventKind) (index : Option (Fin 64)) (outer : Option Byte) (detail : Half) : State :=
  { s with events := s.events.post { kind, timestamp := s.clock, index, outer, detail } }

/-! ### The Up Queue and the uplink transmitter -/

/-- The idle transmitter begins the head frame of the Up Queue, with the attention flag as the Event Queue stands (R42,
R43). A transmitter that is sending is left alone. -/
def State.beginUplink (s : State) : State :=
  { s with
    uplinkTransmitter :=
      match s.uplinkTransmitter, s.up.frames with
      | .idle, f :: _ => if s.works then .sending (f.wire s.attn) 0 else .idle
      | t, _ => t }

/-- A frame joins the tail of the Up Queue; an idle transmitter begins it (R130, R42). -/
def State.enqueue (s : State) (f : UpFrame) : State :=
  State.beginUplink { s with up := { s.up with frames := s.up.frames ++ [f] } }

/-- The Exchange Engine admits an answer into its reserved slot (R135). -/
def State.admitExchange (s : State) (f : UpFrame) : State :=
  State.enqueue { s with up := { s.up with exchangeHeld := false } } f

/-- The Management Engine admits a reply into its reserved slot; the Management Request Slot becomes empty (R135,
R170). -/
def State.admitManagement (s : State) (f : UpFrame) : State :=
  State.enqueue { s with up := { s.up with managementHeld := false }, slot := none } f

/-- A publication may be admitted: the total plus one is 6 or less (R137). -/
def State.publicationFits (s : State) : Bool := decide (s.up.total + 1 ≤ Config.publicationLimit)

/-- The waiting request of the Management Engine is granted; granting it takes the request in the Slot (R132, R169). -/
def State.grantManagement (s : State) : State := { s with up := { s.up with managementHeld := true } }

/-- The Exchange Engine hands its reservation back; a waiting request of the Management Engine is granted in the same
act (R133, R136). -/
def State.releaseExchange (s : State) : State :=
  let s := { s with up := { s.up with exchangeHeld := false } }
  if s.managementAsks then s.grantManagement else s

/-! ### The Station Table -/

/-- The lookup by outer address (R2). -/
def findOuter (t : Table) (a : Byte) : Option (Fin 64) :=
  if 254 ≤ a.toNat then none
  else (List.finRange 64).find? fun i =>
    match t.get i with
    | none => false
    | some e => e.config.outer = a

/-- The lookup by inner address (R3). -/
def findInner (t : Table) (a : Byte) : Option (Fin 64) :=
  if 254 ≤ a.toNat then none
  else (List.finRange 64).find? fun i =>
    match t.get i with
    | none => false
    | some e => e.config.inner = a

/-- Put an entry, or no entry, at an index. -/
def State.setEntry (s : State) (i : Fin 64) (e : Option Entry) : State := { s with table := s.table.set i.val e }

/-- The entry at an index that may be absent. -/
def State.entryAt (s : State) (i : Option (Fin 64)) : Option Entry :=
  match i with
  | none => none
  | some j => s.table.get j

/-- Change the runtime fields of a valid entry; an empty or absent one is left as it is. -/
def State.modifyEntry (s : State) (i : Option (Fin 64)) (f : Entry → Entry) : State :=
  match i, s.entryAt i with
  | some j, some e => s.setEntry j (some (f e))
  | _, _ => s

/-- Record an outcome kind (R13). -/
def Entry.record (e : Entry) (k : OutcomeKind) : Entry :=
  { e with outcomes := e.outcomes ||| k.bit, lastOutcome := some k }

/-- Statistics at their starting values (R12). -/
def Statistics.zero : Statistics :=
  { exchanges := 0, silent := 0, damaged := 0, rejected := 0, late := 0, refused := 0, published := 0, thinned := 0,
    reclaims := 0 }

/-- Turnarounds at their starting values (R11). -/
def Turnarounds.absent : Turnarounds := { last := none, min := none, max := none }

/-- The turnaround of an accepted response (R11). -/
def Turnarounds.update (t : Turnarounds) (v : Half) : Turnarounds :=
  { last := some v
    min := match t.min with
      | none => some v
      | some m => if v.toNat < m.toNat then some v else some m
    max := match t.max with
      | none => some v
      | some m => if m.toNat < v.toNat then some v else some m }

/-- A valid entry with this configuration and every runtime field at its starting value (R17). -/
def Entry.fresh (c : Configuration) (probeInterval : Byte) : Entry :=
  { config := c
    status := match c.admin with
      | .enabled => .enabled
      | .disabled => .disabled
    strikes := 0
    probeCountdown := probeInterval.toNat
    dividerCount := 0
    turnarounds := Turnarounds.absent
    statistics := Statistics.zero
    outcomes := 0
    lastOutcome := none
    pending := none }

/-- A write that keeps both addresses keeps the runtime fields, with the adjustments of R16. -/
def Entry.rewrite (e : Entry) (c : Configuration) (probeInterval : Byte) : Entry :=
  let e' := match e.config.admin, c.admin with
    | .enabled, .disabled => { e with status := .disabled }
    | .disabled, .enabled => { e with status := .enabled, strikes := 0, probeCountdown := probeInterval.toNat }
    | _, _ => e
  { e' with
    config := c
    dividerCount :=
      if e.config.publishDivider = c.publishDivider ∧ e.config.token = c.token then e.dividerCount else 0
    pending := none }

/-- A write applied to an entry, empty or valid (R16, R17). -/
def applyWrite (old : Option Entry) (c : Configuration) (probeInterval : Byte) : Entry :=
  match old with
  | none => Entry.fresh c probeInterval
  | some e =>
    if e.config.outer = c.outer ∧ e.config.inner = c.inner then e.rewrite c probeInterval
    else Entry.fresh c probeInterval

/-- CLEAR_STATS on one entry (R22). -/
def Entry.clearStats (e : Entry) : Entry :=
  { e with statistics := Statistics.zero, outcomes := 0, lastOutcome := none, turnarounds := Turnarounds.absent }

/-- Every valid entry changed by one function. -/
def Table.mapEntries (t : Table) (f : Entry → Entry) : Table := t.map (fun e => e.map f)

/-- The pending update of an entry applied at the move to IDLE, with its UPDATE_APPLIED event (R21). -/
def State.applyPending (s : State) (i : Option (Fin 64)) : State :=
  match i, s.entryAt i with
  | some j, some e =>
    match e.pending with
    | none => s
    | some (.write c) =>
      (s.setEntry j (some (applyWrite (some e) c s.policy.probeInterval))).post .updateApplied (some j) (some c.outer) 0
    | some .delete => (s.setEntry j none).post .updateApplied (some j) (some e.config.outer) 1
  | _, _ => s

/-! ### Strikes (R98) -/

/-- A strike against an entry: counted only while its status is ENABLED; at the threshold it bars in ENFORCE and sets
the count to 0 in OBSERVE. The event, if one is brought about, is posted by the caller (R97 step 2). -/
def Entry.strike (e : Entry) (p : Policy) : Entry × Option EventKind :=
  if e.status = .enabled then
    if e.strikes + 1 = p.strikeThreshold.toNat then
      match p.mode with
      | .enforce => ({ e with status := .barred, strikes := 0, probeCountdown := p.probeInterval.toNat }, some .barred)
      | .observe => ({ e with strikes := 0 }, some .wouldBar)
    else ({ e with strikes := e.strikes + 1 }, none)
  else (e, none)

/-- Post an event that may not have been brought about. -/
def State.postIf (s : State) (kind : Option EventKind) (index : Option (Fin 64)) (outer : Option Byte) (detail : Half) :
    State :=
  match kind with
  | none => s
  | some k => s.post k index outer detail

/-- A failure charged to the engaged entry (R97 steps 1 and 2): its counter, its outcome and a strike; the event of the
outcome, if the engine posts one; then BARRED or WOULD_BAR. -/
def State.charge (s : State) (g : Engagement) (count : Statistics → Statistics) (k : OutcomeKind)
    (own : Option EventKind) (detail : Half) : State :=
  match g.index, s.entryAt g.index with
  | some j, some e =>
    let struck := Entry.strike ({ e with statistics := count e.statistics }.record k) s.policy
    ((s.setEntry j (some struck.1)).postIf own g.index g.eventOuter detail).postIf struck.2 g.index g.eventOuter 0
  | _, _ => s.postIf own g.index g.eventOuter detail

/-- Counter increases, each saturating (R12). -/
def Statistics.addExchange (t : Statistics) : Statistics := { t with exchanges := satInc t.exchanges }
/-- SILENT increased (R12). -/
def Statistics.addSilent (t : Statistics) : Statistics := { t with silent := satInc t.silent }
/-- DAMAGED increased (R12). -/
def Statistics.addDamaged (t : Statistics) : Statistics := { t with damaged := satInc t.damaged }
/-- REJECTED increased (R12). -/
def Statistics.addRejected (t : Statistics) : Statistics := { t with rejected := satInc t.rejected }
/-- LATE increased (R12). -/
def Statistics.addLate (t : Statistics) : Statistics := { t with late := satInc t.late }
/-- REFUSED increased (R12). -/
def Statistics.addRefused (t : Statistics) : Statistics := { t with refused := satInc t.refused }
/-- PUBLISHED increased (R12). -/
def Statistics.addPublished (t : Statistics) : Statistics := { t with published := satInc t.published }
/-- THINNED increased (R12). -/
def Statistics.addThinned (t : Statistics) : Statistics := { t with thinned := satInc t.thinned }
/-- RECLAIMS increased (R12). -/
def Statistics.addReclaims (t : Statistics) : Statistics := { t with reclaims := satInc t.reclaims }

/-! ### The framer (R32 to R36) -/

/-- A head character opens a frame: the register starts at FFFFh and takes DEST (R32). -/
def OpenFrame.open (dest : Byte) : OpenFrame := { kept := [dest], register := crcByte 0xFFFF dest, damage := none }

/-- What taking a body character leaves of an open frame: it stays open, or it ends (R33, R34). -/
inductive Framed where
  | stillOpen (f : OpenFrame)
  | ended (e : Ended)
  deriving DecidableEq, Repr

/-- The fields of a frame whose characters up to the first CHECK character are kept (R37). -/
def OpenFrame.fields (f : OpenFrame) : Frame :=
  { dest := f.kept.getD 0 0
    code := kindCode (f.kept.getD 1 0)
    src := f.kept.getD 2 0
    payload := (f.kept.drop 4).take (f.kept.getD 3 0).toNat }

/-- A body character taken by an open frame (R33, R34): a discarding frame keeps nothing; LEN above 240 records
BAD_LEN, and is itself neither kept nor shifted in (log 26, a choice of the model); the first CHECK character is kept and
not shifted in; the second ends the frame. -/
def OpenFrame.take (f : OpenFrame) (v : Byte) : Framed :=
  match f.damage with
  | some _ => .stillOpen f
  | none =>
    match f.kept[3]? with
    | none =>
      if f.kept.length = 3 ∧ 240 < v.toNat then .stillOpen { f with damage := some .badLen }
      else .stillOpen { f with kept := f.kept ++ [v], register := crcByte f.register v }
    | some len =>
      if f.kept.length < len.toNat + 4 then
        .stillOpen { f with kept := f.kept ++ [v], register := crcByte f.register v }
      else if f.kept.length = len.toNat + 4 then .stillOpen { f with kept := f.kept ++ [v] }
      else if half (f.kept.getD (len.toNat + 4) 0) v = f.register then .ended (.intact f.fields)
      else .ended (.damaged .check)

/-- The damage kind of a frame cut short: the first one recorded stands (R35, R36). -/
def OpenFrame.cut (f : OpenFrame) (cause : Damage) : Damage := f.damage.getD cause

/-- The segment receiver as its open frame is cut off from outside: a step of the silence to two that is owed is an
ordinary step now, which ends the run (R36, R46, R48; log 3). -/
def State.silenceCounted (s : State) : SegmentReceiver :=
  if s.fragmentOwed then { s.segment with silence := 2, activity := 0 } else s.segment

/-! ### The segment transmitter -/

/-- A transmitter in GAP_WAIT begins its frame on a quiet line in RUN or DRAIN (R52). Its own characters are line
activity, so the silence ends, and the activity counter is held at 0 (R46, R48). -/
def State.startIfReady (s : State) : State :=
  match s.transmitter with
  | .gapWait f =>
    if s.lineQuiet && s.maySend then
      { s with transmitter := .onLine f 0 0, segment := { s.segment with silence := 0, activity := 0 } }
    else s
  | _ => s

/-- A frame handed to the transmitter: GAP_WAIT at once when it is IDLE, held while it is ABORTING; it begins at once
if the line is quiet (R52, R79). -/
def State.handOver (s : State) (f : LineFrame) : State :=
  match s.transmitter with
  | .aborting left _ => { s with transmitter := .aborting left (some f) }
  | _ => State.startIfReady { s with transmitter := .gapWait f }

/-- The abort procedure begins on a frame whose character at position `sent` is in progress; with nothing left to send
the transmitter is IDLE at once (R56; log 23). -/
def beginAbort (f : LineFrame) (sent : Nat) : SegmentTransmitter :=
  match abortTail f sent with
  | [] => .idle
  | left => .aborting left none

/-- An abort order (R57). A frame held by an ABORTING transmitter is given up with it (log 8). -/
def SegmentTransmitter.abort : SegmentTransmitter → SegmentTransmitter
  | .idle => .idle
  | .gapWait _ => .idle
  | .onLine f sent _ => beginAbort f sent
  | .aborting left _ => .aborting left none

/-- The order to abort, given by the Exchange Engine or a soft reset (R57, R58). -/
def State.orderAbort (s : State) : State := { s with transmitter := s.transmitter.abort }

/-! ### Closing an engagement (R97, R102) -/

/-- The Last-Closed record set from the engagement's record at the Line Clock (R103). -/
def State.setLastClosed (s : State) (g : Engagement) : State :=
  { s with
    lastClosed := match g.index with
      | none => s.lastClosed
      | some j => some { index := j, inner := g.inner, time := s.clock } }

/-- The move to IDLE: the record is discarded, the pending update applied, and in DRAIN the gate enters STANDBY (R97
step 5, R21, R158). -/
def State.moveToIdle (s : State) : State :=
  match s.engagement with
  | none => s
  | some g =>
    let s := State.applyPending { s with engagement := none } g.index
    { s with device := if s.device = .drain then .standby else s.device }

/-- The end of SETTLING (R102): steps 4 and 5 of R97, and the release of a SEND's reservation. -/
def State.endSettling (s : State) : State :=
  match s.engagement with
  | none => s
  | some g =>
    match g.state with
    | .settling setsLastClosed =>
      let s := if setsLastClosed then s.setLastClosed g else s
      let s := if g.kind = .send then s.releaseExchange else s
      s.moveToIdle
    | _ => s

/-- The Engagement moves to SETTLING, which ends in the same act on a line already quiet (R102). -/
def State.enterSettling (s : State) (setsLastClosed : Bool) : State :=
  match s.engagement with
  | none => s
  | some g =>
    let s := { s with engagement := some { g with state := .settling setsLastClosed } }
    if s.lineQuiet then s.endSettling else s

/-- A REQUEST or GRANT is answered against the reservation; a SEND is not (R85, R86). -/
def State.answerIfOwed (s : State) (g : Engagement) (f : UpFrame) : State :=
  if g.kind = .send then s else s.admitExchange f

/-- The close of a REQUEST exchange to IDLE after its outcome is recorded: the answer, the Last-Closed record, the move
(R97 steps 3 to 5). -/
def State.closeRequest (s : State) (g : Engagement) (answer : UpFrame) : State :=
  ((s.admitExchange answer).setLastClosed g).moveToIdle

end Sys2Proof.Machine
end

