-- ==== Sys2Proof/Machine/Engine.lean ====
section
/-! DEFINITION. The Exchange Engine: what it does with each report of the Segment Port and with its own timers
(chapters 5 and 6). -/

namespace Sys2Proof.Machine

/-! ### Frames of no engagement (R87, R102, R104, R105, R111) -/

/-- An intact frame that belongs to no engagement: discarded with event STRAY, detail its SRC. -/
def State.stray (s : State) (f : Frame) : State := s.post .stray none none (codeDetail f.src)

/-- The character times from the close to the end of a late frame, modulo 2^32 and saturating at 65535 (R104, R153). -/
def lateDetail (clock closed : Word) : Half :=
  BitVec.ofNat 16 (min (clock - closed).toNat 65535)

/-- The entry a late frame is counted on: valid, and still at the recorded inner address (R12, R104). -/
def State.lateEntry (s : State) (c : LastClosed) : Option Entry :=
  match s.table.get c.index with
  | none => none
  | some e => if e.config.inner = c.inner then some e else none

/-- An intact frame that ends while the Engagement is IDLE: LATE if it matches the Last-Closed record, else STRAY
(R104, R105). -/
def State.judgeIdle (s : State) (f : Frame) : State :=
  match s.lastClosed with
  | none => s.stray f
  | some c =>
    if f.code = UpKind.response.code ∧ f.src = c.inner then
      let s' := s.post .late (some c.index) ((s.lateEntry c).map (fun e => e.config.outer)) (lateDetail s.clock c.time)
      match s.lateEntry c with
      | none => s'
      | some _ =>
        s'.modifyEntry (some c.index) (fun e => { e with statistics := e.statistics.addLate }.record .late)
    else s.stray f

/-! ### The response (R91 to R95) -/

/-- A damaged frame in RECEIVING closes the exchange as DAMAGED (R91). -/
def State.closeDamaged (s : State) (g : Engagement) (d : Damage) : State :=
  (s.charge g Statistics.addDamaged .damaged (some .damaged) (codeDetail d.code)).closeRequest g
    (substitute g.outer .damaged (codeDetail d.code))

/-- The four tests of R92 in order: the reason of the first that fails. -/
def rejection (g : Engagement) (maxResponse : Byte) (f : Frame) : Option Reason :=
  if f.src ≠ g.inner then some .wrongSource
  else if f.dest ≠ 0xFF then some .wrongSource
  else if f.code ≠ UpKind.response.code then some .wrongKind
  else if maxResponse.toNat < f.payload.length then some .overlong
  else none

/-- The detail of the SUBSTITUTE for a rejected frame (R96). -/
def rejectionDetail (r : Reason) (f : Frame) : Half :=
  match r with
  | .wrongSource => half f.src f.dest
  | .wrongKind => kindDetail f.code
  | _ => BitVec.ofNat 16 f.payload.length

/-- A rejected frame: in ENFORCE a SUBSTITUTE answers (R93), in OBSERVE the frame is forwarded as the RESPONSE
(R94). -/
def State.closeRejected (s : State) (g : Engagement) (r : Reason) (f : Frame) : State :=
  match s.policy.mode with
  | .enforce =>
    (s.charge g Statistics.addRejected .rejected (some .rejected) (r.detail false)).closeRequest g
      (substitute g.outer r (rejectionDetail r f))
  | .observe =>
    (s.charge g Statistics.addRejected .rejected (some .rejected) (r.detail true)).closeRequest g
      (responseFrame g.outer f.payload)

/-- What an accepted answer does to the entry: EXCHANGES, outcome ANSWERED, strikes 0, and the release of a probe that
still finds the entry BARRED (R95, R99, R117, R118). -/
def Entry.answered (e : Entry) (probe : Bool) : Entry :=
  { e with
    statistics := e.statistics.addExchange
    strikes := 0
    status := if probe && e.status = Status.barred then .enabled else e.status }.record .answered

/-- The accepted answer of a probe releases the entry: RELEASED with detail PROBE (R99, R118). -/
def Entry.probeReleases (e : Entry) (probe : Bool) : Option EventKind :=
  if probe && e.status = Status.barred then some .released else none

/-- The accepted answer recorded on the engaged entry, with RELEASED where a probe brings it about; a RESPONSE also
gives its turnaround (R11, R95, R117). -/
def State.creditAnswer (s : State) (g : Engagement) (turnaround : Option Nat) : State :=
  match g.index, s.entryAt g.index with
  | some j, some e =>
    let e' := match turnaround with
      | none => e
      | some v => { e with turnarounds := e.turnarounds.update (BitVec.ofNat 16 v) }
    (s.setEntry j (some (e'.answered g.probe))).postIf (e.probeReleases g.probe) g.index g.eventOuter releasedByProbe
  | _, _ => s

/-- An accepted RESPONSE (R95). -/
def State.closeAnswered (s : State) (g : Engagement) (f : Frame) : State :=
  (s.creditAnswer g (some s.watch)).closeRequest g (responseFrame g.outer f.payload)

/-- The first frame to end in RECEIVING closes the exchange (section 5.4). -/
def State.judgeResponse (s : State) (g : Engagement) (e : Ended) : State :=
  match e with
  | .damaged d => s.closeDamaged g d
  | .intact f =>
    match rejection g ((s.entryAt g.index).elim 0 (fun e => e.config.maxResponse)) f with
    | some r => s.closeRejected g r f
    | none => s.closeAnswered g f

/-! ### Frames while the line is held (R111 to R120) -/

/-- A damaged frame in HOLDING (R120). -/
def State.holderDamaged (s : State) (g : Engagement) (d : Damage) : State :=
  s.charge g Statistics.addDamaged .damaged (some .damaged) (codeDetail d.code)

/-- A frame of another kind from the holder (R119): the observed flag stays clear in both modes. -/
def State.holderWrongKind (s : State) (g : Engagement) : State :=
  s.charge g Statistics.addRejected .rejected (some .rejected) (Reason.wrongKind.detail false)

/-- The DEST a candidate publication is translated to (R114). -/
def translateDest (t : Table) (dest : Byte) : Option Byte :=
  if dest = 0xFF then some 0xFF
  else
    match findInner t dest with
    | none => none
    | some i =>
      match t.get i with
      | none => none
      | some e => some e.config.outer

/-- A publication as it goes upstream (R114). -/
def publishFrame (dest src : Byte) (payload : List Byte) : UpFrame :=
  { kind := .publish, dest := dest, src := src, aux := false, payload := payload, mark := none }

/-- A candidate publication translated and offered to the Up Queue (R114, R115, R137). -/
def State.offerPublication (s : State) (g : Engagement) (f : Frame) : State :=
  match translateDest s.table f.dest with
  | none => s.post .publishBadDest g.index g.eventOuter (codeDetail f.dest)
  | some dest =>
    if s.publicationFits then
      (s.modifyEntry g.index (fun e => { e with statistics := e.statistics.addPublished })).enqueue
        (publishFrame dest g.outer f.payload)
    else s.post .publishDropped g.index g.eventOuter 0

/-- The divider count advanced by one, from one less than the divider back to 0 (R10, R113). -/
def Entry.advanceDivider (e : Entry) : Entry :=
  { e with
    dividerCount := if e.config.publishDivider.toNat ≤ e.dividerCount + 1 then 0 else e.dividerCount + 1 }

/-- An intact PUBLISH from the holder: counted, then thinned or offered (R113). -/
def State.holderPublish (s : State) (g : Engagement) (f : Frame) : State :=
  let s := { s with engagement := some { g with seen := g.seen.map satInc } }
  match s.entryAt g.index with
  | none => s
  | some e =>
    let s := s.modifyEntry g.index Entry.advanceDivider
    if e.dividerCount = 0 then s.offerPublication g f
    else s.modifyEntry g.index (fun e => { e with statistics := e.statistics.addThinned })

/-- The holder's RETURN closes the phase with the token counter's value as the budget remaining (R117). -/
def State.holderReturn (s : State) (g : Engagement) : State :=
  ((s.creditAnswer g none).admitExchange (returnFrame g.outer false s.token)).moveToIdle

/-- A frame that ends in HOLDING, sorted by condition, SRC and kind (R111). -/
def State.judgeHolding (s : State) (g : Engagement) (e : Ended) : State :=
  match e with
  | .damaged d => s.holderDamaged g d
  | .intact f =>
    if f.src ≠ g.inner then s.stray f
    else if f.code = UpKind.publish.code then s.holderPublish g f
    else if f.code = UpKind.returned.code then s.holderReturn g
    else s.holderWrongKind g

/-! ### The reports of the Segment Port -/

/-- An ended frame handed to the Exchange Engine (R37): discarded in STANDBY (R60), otherwise judged by the state of
the Engagement. No ended frame reaches AWAITING (table of section 5.1, log 19). -/
def State.engineFrame (s : State) (e : Ended) : State :=
  if s.device = .standby then s
  else
    match s.engagement with
    | none =>
      match e with
      | .intact f => s.judgeIdle f
      | .damaged _ => s
    | some g =>
      match g.state with
      | .sending | .settling _ =>
        match e with
        | .intact f => s.stray f
        | .damaged _ => s
      | .awaiting => s
      | .receiving => s.judgeResponse g e
      | .holding => s.judgeHolding g e

/-- A head arrival: it moves an AWAITING exchange to RECEIVING; the watch counter stops at its value (R89). It is
ignored in every other state (R87, R102, R105, R112) and in STANDBY (R60). -/
def State.engineHead (s : State) : State :=
  if s.device = .standby then s
  else
    match s.engagement with
    | none => s
    | some g =>
      match g.state with
      | .awaiting => { s with engagement := some { g with state := .receiving, headArrival := some s.clock } }
      | _ => s

/-- The detail of SUBSTITUTE JABBER: the damage kind of the truncated frame in RECEIVING, 0 in AWAITING (R96, R100). -/
def jabberDetail (st : EngagementState) (d : Option Damage) : Half :=
  match st, d with
  | .receiving, some d => codeDetail d.code
  | _, _ => 0

/-- An exchange closes as JABBER (R100). -/
def State.closeJabber (s : State) (g : Engagement) (d : Option Damage) : State :=
  ((s.charge g Statistics.addDamaged .jabber none 0).admitExchange
    (substitute g.outer .jabber (jabberDetail g.state d))).enterSettling true

/-- A token phase reclaimed on jabber (R125). -/
def State.reclaimJabber (s : State) (g : Engagement) : State :=
  ((s.charge g Statistics.addReclaims .jabber none 0).admitExchange
    (returnFrame g.outer true s.token)).enterSettling false

/-- The MUTED report, with the damage kind of the frame it truncated (R87, R100, R102, R105, R125; discarded in
STANDBY, R60). -/
def State.engineMuted (s : State) (d : Option Damage) : State :=
  if s.device = .standby then s
  else
    match s.engagement with
    | none => s
    | some g =>
      match g.state with
      | .awaiting | .receiving => s.closeJabber g d
      | .holding => s.reclaimJabber g
      | .sending | .settling _ => s

/-- The line-quiet event: it ends SETTLING (R102), and has no effect in any other state; discarded in STANDBY (R60). -/
def State.engineQuiet (s : State) : State :=
  if s.device = .standby then s
  else
    match s.engagement with
    | none => s
    | some g =>
      match g.state with
      | .settling _ => s.endSettling
      | _ => s

/-- The completion of the forwarded frame (R84, R110). -/
def State.engineComplete (s : State) : State :=
  match s.engagement with
  | none => s
  | some g =>
    match g.state with
    | .sending =>
      match g.kind with
      | .request => { s with engagement := some { g with state := .awaiting }, watch := 0 }
      | .send => s.releaseExchange.moveToIdle
      | .grant =>
        { s with engagement := some { g with state := .holding }, token := (g.budget.getD 0).toNat }
    | _ => s

/-- The report of an echo fault at a position (R85). -/
def State.engineEchoFault (s : State) (position : Nat) : State :=
  match s.engagement with
  | none => s
  | some g =>
    match g.state with
    | .sending =>
      ((s.post .echoFault g.index g.eventOuter (BitVec.ofNat 16 position)).answerIfOwed g
        (substitute g.outer .lineFault (BitVec.ofNat 16 position))).enterSettling false
    | _ => s

/-- The truncation of an open frame ordered by the engine: the receiver returns to LINE_IDLE (R51). -/
def State.truncate (s : State) : State :=
  match s.segment.state with
  | .inFrame _ => { s with segment := { s.silenceCounted with state := .lineIdle } }
  | _ => s

/-- The report of the frame that a truncation order closes; it reaches the engine after the order (R36, R51). -/
def State.truncatedReport (s : State) : Option Ended :=
  match s.segment.state with
  | .inFrame f => some (.damaged (f.cut .truncated))
  | _ => none

/-- An ended frame that there may be. -/
def State.engineFrameIf (s : State) (e : Option Ended) : State :=
  match e with
  | none => s
  | some e => s.engineFrame e

/-! ### The engine's own timers -/

/-- The deadline of the engaged entry (R6, R88). -/
def State.engagedDeadline (s : State) (g : Engagement) : Nat :=
  (s.entryAt g.index).elim 0 (fun e => e.config.deadline.toNat)

/-- The watch counter steps to the deadline in AWAITING: the exchange closes as SILENT (R88). -/
def State.expireDeadline (s : State) (g : Engagement) : State :=
  let deadline := s.engagedDeadline g
  let s := { s with watch := deadline }
  (s.charge g Statistics.addSilent .silent (some .silent) (BitVec.ofNat 16 deadline)).closeRequest g
    (substitute g.outer .silent (BitVec.ofNat 16 deadline))

/-- The token counter steps from 1 to 0 in HOLDING: the gate reclaims the line (R122, R123). -/
def State.expireToken (s : State) (g : Engagement) : State :=
  let report := s.truncatedReport
  let s := { s.truncate with token := 0 }
  let s := s.charge g Statistics.addReclaims .reclaimed (some .reclaimed) (g.seen.getD 0)
  let s := (s.admitExchange (returnFrame g.outer true 0)).enterSettling false
  s.engineFrameIf report

/-! ### ABANDON (R86, R101, R126) -/

/-- The ABANDONED event and SUBSTITUTE carry the state found as their detail. -/
def abandonDetail (st : EngagementState) : Half := codeDetail (engagementCode (some st))

/-- ABANDON carried out on the Engagement in the state it finds. -/
def State.abandonEngagement (s : State) : State :=
  match s.engagement with
  | none => s
  | some g =>
    let detail := abandonDetail g.state
    match g.state with
    | .sending =>
      ((s.orderAbort.post .abandoned g.index g.eventOuter detail).answerIfOwed g
        (substitute g.outer .abandoned detail)).enterSettling false
    | .awaiting =>
      ((s.post .abandoned g.index g.eventOuter detail).admitExchange
        (substitute g.outer .abandoned detail)).enterSettling true
    | .receiving =>
      let report := s.truncatedReport
      (((s.truncate.post .abandoned g.index g.eventOuter detail).admitExchange
        (substitute g.outer .abandoned detail)).enterSettling true).engineFrameIf report
    | .holding =>
      let report := s.truncatedReport
      (((s.truncate.post .abandoned g.index g.eventOuter detail).admitExchange
        (returnFrame g.outer true s.token)).enterSettling false).engineFrameIf report
    | .settling _ => s

end Sys2Proof.Machine
end

