-- ==== Sys2Proof/Machine/Segment.lean ====
section
/-! DEFINITION. The Segment Port: jabber, the quiet line, the echo comparator and the abort procedure (chapter 3), and
the commands JABBER, LINE_QUIET, TRANSMISSION_COMPLETE, ECHO_FAULT and ABORT_END. -/

namespace Sys2Proof.Machine

/-- The damage kind of a frame that the entry into MUTED truncates, if one is open (R36, R49). -/
def ReceiverState.mutedFrame : ReceiverState → Option Damage
  | .inFrame f => some (f.cut .truncated)
  | _ => none

/-- The receiver enters MUTED (R49). JABBER is posted before the engine acts on the report, so that it stands before
the answer and before BARRED (R125, R149; log 13). -/
def State.enterMuted (s : State) : State :=
  let d := s.segment.state.mutedFrame
  let s' := { s with segment := { s.silenceCounted with state := .muted, activity := 0 } }
  (s'.post .jabber s.engagedIndex (s.engagement.bind Engagement.eventOuter) 0).engineMuted d

/-- The occasion of JABBER: a run is counted, and its next step passes the jabber limit (R48, R49). -/
def State.jabberDue (s : State) : Bool :=
  s.segmentFrames && decide (s.policy.jabberLimit.toNat ≤ s.segment.activity)

/-- JABBER taken where its occasion holds. -/
def State.takeJabber (s : State) : State := if s.jabberDue then s.enterMuted else s

/-- JABBER (R49). -/
def execJabber (s : State) : Host.Outcome State Fault Refusal := .next s.takeJabber

/-- A MUTED receiver returns to LINE_IDLE on a quiet line (R47, R50). -/
def ReceiverState.unmute : ReceiverState → ReceiverState
  | .muted => .lineIdle
  | st => st

/-- The occasion of LINE_QUIET: silence lasts, and its counter stands one short of the gap time (R46, R47). -/
def State.quietDue (s : State) : Bool :=
  s.works && !s.segment.midCharacter && !s.transmitter.drives
    && decide (s.segment.silence + 1 = s.policy.gapTime.toNat)

/-- The silence counter steps to the gap time: MUTED ends, the engine is told, a waiting transmitter may begin
(R47). -/
def State.becomeQuiet (s : State) : State :=
  (State.engineQuiet { s with
    segment := { s.segment with silence := s.policy.gapTime.toNat, state := s.segment.state.unmute } }).startIfReady

/-- LINE_QUIET taken where its occasion holds. -/
def State.takeQuiet (s : State) : State := if s.quietDue then s.becomeQuiet else s

/-- LINE_QUIET (R47). -/
def execLineQuiet (s : State) : Host.Outcome State Fault Refusal := .next s.takeQuiet

/-! ### The echo comparator (R54) -/

/-- The oldest character the comparator holds (R54): the one whose echo is due next, if it has been begun. -/
def SegmentTransmitter.heldEcho : SegmentTransmitter → Option LineChar
  | .onLine f sent compared => if compared ≤ sent then f.chars[compared]? else none
  | _ => none

/-- The comparator holds the second CHECK character and nothing else (R54). -/
def SegmentTransmitter.lastEchoDue : SegmentTransmitter → Bool
  | .onLine f sent compared => decide (compared + 1 = f.length) && decide (compared ≤ sent)
  | _ => false

/-- The echo of the second CHECK character compares equal: the transmitter returns to IDLE, and silence runs from the
end of that character (R54); then the engine moves the engagement on (R84, R110). -/
def State.completeTransmission (s : State) : State :=
  State.engineComplete { s with
    transmitter := .idle
    segment := { s.segment with silence := 0, activity := 0, midCharacter := false } }

/-- TRANSMISSION_COMPLETE (R54, R84). -/
def execTransmissionComplete (s : State) : Host.Outcome State Fault Refusal :=
  .next (if s.works && s.transmitter.lastEchoDue then s.completeTransmission else s)

/-- An echo fault: the abort procedure begins, and the engine answers (R55, R85). -/
def State.faultEcho (s : State) (position : Nat) : State :=
  State.engineEchoFault { s with transmitter := s.transmitter.abort } position

/-- An echo is missing: the character after the one held is finished, or one character time has passed since the second
CHECK character (R54). -/
def SegmentTransmitter.echoMissing : SegmentTransmitter → Bool
  | .onLine _ sent compared => decide (compared + 2 ≤ sent)
  | _ => false

/-- The position of the oldest character held. -/
def SegmentTransmitter.echoPosition : SegmentTransmitter → Nat
  | .onLine _ _ compared => compared
  | _ => 0

/-- A missing echo taken where its occasion holds (R54, R55). -/
def State.takeMissingEcho (s : State) : State :=
  if s.works && s.transmitter.echoMissing then s.faultEcho s.transmitter.echoPosition else s

/-- A character taken in ON_LINE is compared, value and mark bit together, with the oldest one held (R54). With nothing
held it is not compared (log 9). -/
def State.compareEcho (s : State) (c : LineChar) : State :=
  match s.transmitter, s.transmitter.heldEcho with
  | .onLine f sent compared, some expected =>
    if c = expected then
      if s.transmitter.lastEchoDue then s.completeTransmission
      else { s with transmitter := .onLine f sent (compared + 1) }
    else s.faultEcho compared
  | _, _ => s

/-- The occasion of ECHO_FAULT with a wrong echo: a character is held, and the one taken differs from it. -/
def State.echoDiffers (s : State) (c : LineChar) : Bool :=
  match s.transmitter.heldEcho with
  | none => false
  | some expected => c != expected

/-- The silence ends, and no character is in progress any more: a character was taken (R46). -/
def State.hearSegment (s : State) : State :=
  { s with segment := { s.segment with silence := 0, midCharacter := false } }

/-- ECHO_FAULT (R55, R85): a wrong echo taken, or a missing one. -/
def execEchoFault (heard : Option LineChar) (s : State) : Host.Outcome State Fault Refusal :=
  match heard with
  | none => .next s.takeMissingEcho
  | some c => .next (if s.works && s.echoDiffers c then s.hearSegment.compareEcho c else s)

/-! ### The end of the abort procedure (R56, R52) -/

/-- The occasion of ABORT_END: the last character of the procedure is being sent. -/
def SegmentTransmitter.abortEnds : SegmentTransmitter → Bool
  | .aborting left _ => decide (left.length ≤ 1)
  | _ => false

/-- The transmitter after the abort procedure: IDLE, or GAP_WAIT with a frame handed over meanwhile (R52, R56). -/
def SegmentTransmitter.afterAbort : SegmentTransmitter → SegmentTransmitter
  | .aborting _ (some f) => .gapWait f
  | .aborting _ none => .idle
  | t => t

/-- ABORT_END taken where its occasion holds. The silence runs from the end of the last character (R56); a character whose
start bit was heard in ABORTING goes on, and no silence is counted inside it (R27, R46). Its stop bit finds the transmitter
IDLE or in GAP_WAIT, and it is taken as any other character there (log 25, a choice of the model). -/
def State.takeAbortEnd (s : State) : State :=
  if s.transmitter.abortEnds then
    State.startIfReady { s with
      transmitter := s.transmitter.afterAbort
      segment := { s.segment with silence := 0, activity := 0 } }
  else s

/-- ABORT_END (R56). -/
def execAbortEnd (s : State) : Host.Outcome State Fault Refusal := .next s.takeAbortEnd

end Sys2Proof.Machine
end

