-- ==== Sys2Proof/Machine/Management.lean ====
section
/-! DEFINITION. The Management Engine (chapter 10): the act that carries out the request in the Slot, and the eighteen
management commands. -/

namespace Sys2Proof.Machine

/-- What a command answers: status, detail, results (with OK alone) and a mark that is not sent (R173, R44). -/
structure Reply where
  status  : ReplyStatus
  detail  : Half
  results : List Byte
  mark    : Option Mark
  deriving DecidableEq, Repr

/-- OK with these results. -/
def Reply.ok (results : List Byte) : Reply := { status := .ok, detail := 0, results := results, mark := none }

/-- A reply without results: PENDING or a failure (R173). -/
def Reply.plain (status : ReplyStatus) (detail : Half) : Reply :=
  { status := status, detail := detail, results := [], mark := none }

/-- The MRSP of a reply, with the gate address as it stands after the command as its SRC (R170, R193). -/
def Reply.frame (r : Reply) (gateAddress code : Byte) : UpFrame :=
  { kind := .mrsp, dest := 0xFF, src := gateAddress, aux := false,
    payload := [code, r.status.code] ++ halfBytes r.detail ++ r.results, mark := r.mark }

/-- The reply is admitted against the engine's reservation, and the Slot becomes empty (R170). -/
def State.reply (s : State) (code : Byte) (r : Reply) : State := s.admitManagement (r.frame s.policy.gateAddress code)

/-- The argument characters of the request in READY, if the request names this command (R169, R172 step 1). -/
def State.requestFor (s : State) (code : Byte) : Option (List Byte) :=
  if s.managementReady then
    match s.slot with
    | some (c :: args) => if c = code then some args else none
    | _ => none
  else none

/-- The act of R170: the request in READY that names this command is checked for its length (R172 step 2), carried out,
and answered. Where the Slot holds no such request in READY, the command does not occur (log 1, log 2). -/
def State.carryOut (s : State) (code : Byte) (len : Nat) (act : State → List Byte → State × Reply) : State :=
  match s.requestFor code with
  | none => s
  | some args =>
    if args.length + 1 = len then
      let done := act s args
      done.1.reply code done.2
    else s.reply code (Reply.plain .badLength (BitVec.ofNat 16 (args.length + 1)))

/-! ### Identity and state (R174 to R176) -/

/-- The fixed values (R174). -/
def identity : List Byte :=
  [Config.vendorCode] ++ halfBytes Config.partCode
    ++ [Config.revision, BitVec.ofNat 8 Config.tableCapacity, BitVec.ofNat 8 Config.downCapacity,
        BitVec.ofNat 8 Config.upCapacity, BitVec.ofNat 8 Config.eventCapacity]

/-- IDENTIFY (R174). -/
def execIdentify (s : State) : Host.Outcome State Fault Refusal :=
  .next (s.carryOut 1 1 fun s _ => (s, Reply.ok identity))

/-- The part of the state block that the engagement fills (R175, section 12.3.1). -/
def engagementBytes (g : Option Engagement) : List Byte :=
  match g with
  | none => [engagementCode none, 0, 0xFF, 0] ++ wordBytes 0 ++ wordBytes 0
  | some g =>
    [engagementCode (some g.state), g.kind.code.setWidth 8, indexByte g.index, flagByte g.probe]
      ++ wordBytes g.timeOpened ++ wordBytes (g.headArrival.getD 0xFFFFFFFF)

/-- The reservation places held: 1 for the Exchange Engine plus 2 for the Management Engine (section 12.3.1). -/
def UpQueue.placesByte (q : UpQueue) : Byte := BitVec.ofNat 8 (q.exchangeHeld.toNat + 2 * q.managementHeld.toNat)

/-- The GET_STATE state block (R175, section 12.3.1). -/
def State.stateBlock (s : State) : List Byte :=
  [s.device.code, s.policy.mode.byte] ++ engagementBytes s.engagement
    ++ [BitVec.ofNat 8 s.downQueue.length, BitVec.ofNat 8 s.up.frames.length, s.up.placesByte,
        BitVec.ofNat 8 s.events.records.length, s.events.lost, flagByte s.mutedFlag]

/-- GET_STATE (R175). -/
def execGetState (s : State) : Host.Outcome State Fault Refusal :=
  .next (s.carryOut 2 1 fun s _ => (s, Reply.ok s.stateBlock))

/-- The device state after SET_STATE RUN (R157). -/
def DeviceState.toRun : DeviceState → DeviceState
  | .reset => .reset
  | .init => .init
  | .standby => .run
  | .run => .run
  | .drain => .run

/-- The device state after SET_STATE STANDBY, with the Engagement open or IDLE (R157). -/
def DeviceState.toStandby (d : DeviceState) (engaged : Bool) : DeviceState :=
  match d with
  | .run => if engaged then .drain else .standby
  | .reset => .reset
  | .init => .init
  | .standby => .standby
  | .drain => .drain

/-- The act of SET_STATE (R157, R176). -/
def setStateAct (s : State) (args : List Byte) : State × Reply :=
  if args = [0] then
    let s' := { s with device := s.device.toStandby s.engagement.isSome }
    (s', Reply.ok [s'.device.code])
  else if args = [1] then
    let s' := { s with device := s.device.toRun }
    (s', Reply.ok [s'.device.code])
  else (s, Reply.plain .badValue 0)

/-- SET_STATE (R157, R176). -/
def execSetState (s : State) : Host.Outcome State Fault Refusal := .next (s.carryOut 3 2 setStateAct)

/-! ### The policy (R164 to R168, R177) -/

/-- READ_POLICY (R168, R177). -/
def execReadPolicy (s : State) : Host.Outcome State Fault Refusal :=
  .next (s.carryOut 4 1 fun s _ => (s, Reply.ok s.policy.bytes))

/-- A check with the rule code and the status of its failure (R14, R164). -/
structure Check where
  passes : Bool
  code   : Byte
  status : ReplyStatus
  deriving DecidableEq, Repr

/-- The first check that fails, in order (R14, R164). -/
def firstFailure (cs : List Check) : Option Check := cs.find? fun c => !c.passes

/-- The address is the outer address of a valid entry (P7). -/
def outerInUse (t : Table) (a : Byte) : Bool :=
  (List.finRange 64).any fun i =>
    match t.get i with
    | none => false
    | some e => e.config.outer = a

/-- Rules P1 to P7 in the order of their codes (R164). -/
def policyChecks (t : Table) (p : Policy) : List Check :=
  [ ⟨decide (p.gateAddress.toNat ≤ 254), 0x11, .badValue⟩
  , ⟨decide (3 ≤ p.gapTime.toNat ∧ p.gapTime.toNat ≤ 63), 0x12, .badValue⟩
  , ⟨decide (250 ≤ p.jabberLimit.toNat ∧ p.jabberLimit.toNat ≤ 2047), 0x13, .badValue⟩
  , ⟨decide (1 ≤ p.strikeThreshold.toNat ∧ p.strikeThreshold.toNat ≤ 15), 0x14, .badValue⟩
  , ⟨decide (1 ≤ p.probeInterval.toNat), 0x15, .badValue⟩
  , ⟨p.uplinkRate.inRange && p.segmentRate.inRange, 0x16, .badValue⟩
  , ⟨!outerInUse t p.gateAddress, 0x17, .duplicate⟩ ]

/-- A BARRED entry released by a change to OBSERVE (R166). -/
def Entry.releaseBarred (e : Entry) : Entry :=
  if e.status = .barred then { e with status := .enabled, strikes := 0 } else e

/-- The effect of a policy write on one entry (R166). -/
def Entry.underPolicy (e : Entry) (old new : Policy) : Entry :=
  let e := if old.strikeThreshold = new.strikeThreshold then e else { e with strikes := 0 }
  if old.mode = .enforce ∧ new.mode = .observe then e.releaseBarred else e

/-- The barred entries, in ascending order of index, with their outer addresses (R166). -/
def barredEntries (t : Table) : List (Fin 64 × Byte) :=
  (List.finRange 64).filterMap fun i =>
    match t.get i with
    | none => none
    | some e => if e.status = .barred then some (i, e.config.outer) else none

/-- The entries a policy write releases (R166). -/
def State.releasedBy (s : State) (new : Policy) : List (Fin 64 × Byte) :=
  if s.policy.mode = .enforce ∧ new.mode = .observe then barredEntries s.table else []

/-- RELEASED with detail COMMAND for each released entry (R166). -/
def State.postReleased (s : State) (released : List (Fin 64 × Byte)) : State :=
  released.foldl (fun s r => s.post .released (some r.1) (some r.2) releasedByCommand) s

/-- The jabber limit of a policy write is already passed: the receiver enters MUTED in the act (R165). -/
def State.jabberPassed (s : State) : Bool :=
  s.segmentFrames && decide (s.policy.jabberLimit.toNat < s.segment.activity)

/-- A MUTED receiver leaves MUTED where the new gap makes the line quiet at once; no line-quiet event is reported (R47,
R165). -/
def State.requiet (s : State) : State :=
  if s.lineQuiet then { s with segment := { s.segment with state := s.segment.state.unmute } } else s

/-- Steps of the silence and activity counters that were owed to a gap or a limit which the write moves are ordinary steps
now: the counters make them, and the new values are met from there (R46, R48, R165; log 3). -/
def State.recount (s : State) (new : Policy) : State :=
  let gap := decide (s.policy.gapTime ≠ new.gapTime)
  let limit := decide (s.policy.jabberLimit ≠ new.jabberLimit)
  { s with
    segment := { s.segment with
      silence := if gap && s.owed.contains .quiet && s.quietDue then s.segment.silence + 1 else s.segment.silence
      activity := if limit && s.owed.contains .jabber && s.jabberDue then s.segment.activity + 1
        else s.segment.activity }
    owed := s.owed.filter fun t => !(gap && t == .quiet || limit && t == .jabber) }

/-- The new record in force, with its effects on the table and the segment rate generator (R165, R166, R167). -/
def State.replacePolicy (s : State) (new : Policy) : State :=
  { s with
    policy := new
    table := s.table.mapEntries (fun e => e.underPolicy s.policy new)
    segmentRate := if s.policy.segmentRate = new.segmentRate then s.segmentRate else new.segmentRate }

/-- The JABBER of a lowered limit and the RELEASED events of one write come from different blocks at the same moment,
and either may be stored first (R144): a free value decides where both are posted (log 11). -/
def State.postWritten (s : State) (released : List (Fin 64 × Byte)) : State :=
  if s.jabberPassed then
    match released with
    | [] => s.enterMuted
    | _ :: _ =>
      let s' := { s with freeCount := s.freeCount + 1 }
      if Config.firstTaken s.freeCount % 2 = 0 then s'.enterMuted.postReleased released
      else (s'.postReleased released).enterMuted
  else s.postReleased released

/-- A Policy Record that passed its checks applied (R165 to R167). -/
def State.applyPolicy (s : State) (new : Policy) : State :=
  (((s.recount new).replacePolicy new).requiet).postWritten (s.releasedBy new)

/-- The mark of the OK reply to a policy write (R63, R167). -/
def rateMark (old new : Policy) : Option Mark :=
  if old.uplinkRate = new.uplinkRate then none else some (.uplinkRate new.uplinkRate)

/-- The act of WRITE_POLICY: the device state, then P1 to P7, then the write (R164, R177). -/
def writePolicyAct (s : State) (args : List Byte) : State × Reply :=
  if s.device = .standby then
    match readPolicyRecord args with
    | none => (s, Reply.plain .badLength (BitVec.ofNat 16 (args.length + 1)))
    | some new =>
      match firstFailure (policyChecks s.table new) with
      | some c => (s, Reply.plain c.status (codeDetail c.code))
      | none => (s.applyPolicy new, { status := .ok, detail := 0, results := [], mark := rateMark s.policy new })
  else (s, Reply.plain .wrongState (codeDetail s.device.code))

/-- WRITE_POLICY (R164, R177). -/
def execWritePolicy (s : State) : Host.Outcome State Fault Refusal := .next (s.carryOut 5 15 writePolicyAct)

/-! ### Writing the table (R14 to R20, R178, R179) -/

/-- An entry holds an outer address: its configuration carries it, or a write it holds pending does (R15). -/
def Entry.holdsOuter (e : Entry) (a : Byte) : Bool :=
  e.config.outer = a ||
    match e.pending with
    | some (.write c) => c.outer = a
    | _ => false

/-- An entry holds an inner address (R15). -/
def Entry.holdsInner (e : Entry) (a : Byte) : Bool :=
  e.config.inner = a ||
    match e.pending with
    | some (.write c) => c.inner = a
    | _ => false

/-- Some entry other than the one with this index satisfies a condition (R15). -/
def otherEntry (t : Table) (index : Byte) (holds : Entry → Bool) : Bool :=
  (List.finRange 64).any fun i =>
    decide (i.val ≠ index.toNat) &&
      match t.get i with
      | none => false
      | some e => holds e

/-- Rules E1 to E10 in the order of their codes (R14). -/
def entryChecks (t : Table) (gateAddress index : Byte) (c : Configuration) : List Check :=
  [ ⟨decide (index.toNat < 64), 1, .badIndex⟩
  , ⟨decide (c.outer.toNat ≤ 253 ∧ c.outer ≠ gateAddress), 2, .badValue⟩
  , ⟨decide (c.inner.toNat ≤ 253), 3, .badValue⟩
  , ⟨c.polled || c.token, 4, .badValue⟩
  , ⟨decide (c.maxRequest.toNat ≤ 240 ∧ c.maxResponse.toNat ≤ 240), 5, .badValue⟩
  , ⟨!c.polled || decide (4 ≤ c.deadline.toNat ∧ c.deadline.toNat ≤ 4095), 6, .badValue⟩
  , ⟨if c.token then decide (1 ≤ c.tokenCap.toNat) else decide (c.tokenCap = 0), 7, .badValue⟩
  , ⟨!c.token || decide (1 ≤ c.publishDivider.toNat ∧ c.publishDivider.toNat ≤ 16), 8, .badValue⟩
  , ⟨!otherEntry t index (fun e => e.holdsOuter c.outer), 9, .duplicate⟩
  , ⟨!otherEntry t index (fun e => e.holdsInner c.inner), 10, .duplicate⟩ ]

/-- The engaged entry holds this pending update (R19, R20). -/
def State.holdUpdate (s : State) (i : Fin 64) (u : PendingUpdate) : State :=
  s.modifyEntry (some i) fun e => { e with pending := some u }

/-- A write that passed its checks: held on the engaged entry, otherwise applied at once (R16, R17, R19). -/
def State.writeEntry (s : State) (i : Fin 64) (c : Configuration) : State × Reply :=
  if s.engagedIndex = some i then (s.holdUpdate i (.write c), Reply.plain .pending 0)
  else (s.setEntry i (some (applyWrite (s.table.get i) c s.policy.probeInterval)), Reply.ok [])

/-- The act of WRITE_ENTRY (R14, R178). -/
def writeEntryAct (s : State) (args : List Byte) : State × Reply :=
  match args with
  | [] => (s, Reply.plain .badLength 1)
  | index :: rest =>
    match readConfiguration rest with
    | none => (s, Reply.plain .badLength (BitVec.ofNat 16 (args.length + 1)))
    | some c =>
      match firstFailure (entryChecks s.table s.policy.gateAddress index c), toIndex index with
      | some f, _ => (s, Reply.plain f.status (codeDetail f.code))
      | none, none => (s, Reply.plain .badIndex (codeDetail 1))
      | none, some i => s.writeEntry i c.stored

/-- WRITE_ENTRY (R14, R178). -/
def execWriteEntry (s : State) : Host.Outcome State Fault Refusal := .next (s.carryOut 6 14 writeEntryAct)

/-- The act of CLEAR_ENTRY (R18, R179). -/
def clearEntryAct (s : State) (args : List Byte) : State × Reply :=
  let index := args.getD 0 0
  match toIndex index with
  | none => (s, Reply.plain .badIndex (codeDetail index))
  | some i =>
    match s.table.get i with
    | none => (s, Reply.ok [])
    | some _ =>
      if s.engagedIndex = some i then (s.holdUpdate i .delete, Reply.plain .pending 0)
      else (s.setEntry i none, Reply.ok [])

/-- CLEAR_ENTRY (R18, R179). -/
def execClearEntry (s : State) : Host.Outcome State Fault Refusal := .next (s.carryOut 7 2 clearEntryAct)

/-! ### Reading the table (R23, R24, R180, R181) -/

/-- The index k places after another, counting on from 63 to 0 (R23). -/
def indexAfter (i : Fin 64) (k : Nat) : Fin 64 := ⟨(i.val + k) % 64, Nat.mod_lt _ (by decide)⟩

/-- The records of n entries from an index on (R23, R24). -/
def recordsFrom (t : Table) (i : Fin 64) (n : Nat) : List Byte :=
  (List.range n).flatMap fun k => entryRecord (indexAfter i k) (t.get (indexAfter i k))

/-- A read of n entries from an index: the records, and the pointer left after the last (R23, R181). -/
def State.readFrom (s : State) (i : Fin 64) (n : Byte) : State × Reply :=
  if 1 ≤ n.toNat ∧ n.toNat ≤ 4 then
    ({ s with tablePointer := indexAfter i n.toNat }, Reply.ok (recordsFrom s.table i n.toNat))
  else (s, Reply.plain .badValue 0)

/-- The act of READ_ENTRIES (R23, R181). -/
def readEntriesAct (s : State) (args : List Byte) : State × Reply :=
  let start := args.getD 0 0
  match toIndex start with
  | none => (s, Reply.plain .badIndex (codeDetail start))
  | some i => s.readFrom i (args.getD 1 0)

/-- READ_ENTRIES (R23, R181). -/
def execReadEntries (s : State) : Host.Outcome State Fault Refusal := .next (s.carryOut 8 3 readEntriesAct)

/-- READ_NEXT (R23, R181). -/
def execReadNext (s : State) : Host.Outcome State Fault Refusal :=
  .next (s.carryOut 9 2 fun s args => s.readFrom s.tablePointer (args.getD 0 0))

/-- The act of FIND_ENTRY (R180). -/
def findEntryAct (s : State) (args : List Byte) : State × Reply :=
  let address := args.getD 0 0
  match findOuter s.table address with
  | some i => (s, Reply.ok [BitVec.ofNat 8 i.val])
  | none => (s, Reply.plain .notFound (codeDetail address))

/-- FIND_ENTRY (R180). -/
def execFindEntry (s : State) : Host.Outcome State Fault Refusal := .next (s.carryOut 10 2 findEntryAct)

/-! ### Runtime fields (R22, R182) -/

/-- The act of RELEASE (R22, R182). -/
def releaseAct (s : State) (args : List Byte) : State × Reply :=
  let index := args.getD 0 0
  match toIndex index with
  | none => (s, Reply.plain .badIndex (codeDetail index))
  | some i =>
    match s.table.get i with
    | none => (s, Reply.plain .badIndex (codeDetail index))
    | some e =>
      if e.status = .barred then
        ((s.setEntry i (some { e with status := .enabled, strikes := 0 })).post .released (some i)
          (some e.config.outer) releasedByCommand, Reply.ok [])
      else (s, Reply.ok [])

/-- RELEASE (R22, R182). -/
def execRelease (s : State) : Host.Outcome State Fault Refusal := .next (s.carryOut 11 2 releaseAct)

/-- The act of CLEAR_STATS: one entry, or every valid entry for FFh (R22, R182). -/
def clearStatsAct (s : State) (args : List Byte) : State × Reply :=
  let index := args.getD 0 0
  if index = 0xFF then ({ s with table := s.table.mapEntries Entry.clearStats }, Reply.ok [])
  else
    match toIndex index with
    | none => (s, Reply.plain .badIndex (codeDetail index))
    | some i =>
      match s.table.get i with
      | none => (s, Reply.plain .badIndex (codeDetail index))
      | some e => (s.setEntry i (some e.clearStats), Reply.ok [])

/-- CLEAR_STATS (R22, R182). -/
def execClearStats (s : State) : Host.Outcome State Fault Refusal := .next (s.carryOut 12 2 clearStatsAct)

/-! ### Events and the clock (R146, R152, R153, R183, R184) -/

/-- The act of TAKE_EVENTS: up to n of the oldest records leave the queue, and the lost count is read and set to 0
(R146, R183). -/
def takeEventsAct (s : State) (args : List Byte) : State × Reply :=
  let n := (args.getD 0 0).toNat
  if 1 ≤ n ∧ n ≤ 8 then
    ({ s with events := { records := s.events.records.drop n, lost := 0 } },
      Reply.ok ((s.events.records.take n).flatMap EventRecord.bytes ++ [s.events.lost]))
  else (s, Reply.plain .badValue 0)

/-- TAKE_EVENTS (R146, R183). -/
def execTakeEvents (s : State) : Host.Outcome State Fault Refusal := .next (s.carryOut 13 2 takeEventsAct)

/-- READ_TIME (R152, R184). -/
def execReadTime (s : State) : Host.Outcome State Fault Refusal :=
  .next (s.carryOut 14 1 fun s _ => (s, Reply.ok (wordBytes s.clock)))

/-- SET_TIME (R153, R184). -/
def execSetTime (s : State) : Host.Outcome State Fault Refusal :=
  .next (s.carryOut 15 5 fun s args =>
    ({ s with clock := word (args.getD 0 0) (args.getD 1 0) (args.getD 2 0) (args.getD 3 0) }, Reply.ok []))

/-! ### The engagement and the gate (R101, R160, R185, R186) -/

/-- ABANDON (R101, R185): the reply's result is the engagement state found. -/
def execAbandon (s : State) : Host.Outcome State Fault Refusal :=
  .next (s.carryOut 16 1 fun s _ =>
    (s.abandonEngagement, Reply.ok [engagementCode (s.engagement.map Engagement.state)]))

/-- SOFT_RESET (R160, R186): the OK reply with the SOFT_RESET mark; the reset itself takes place at its completion. -/
def execSoftReset (s : State) : Host.Outcome State Fault Refusal :=
  .next (s.carryOut 17 1 fun s _ => (s, { status := .ok, detail := 0, results := [], mark := some .softReset }))

/-! ### Requests that name no command (R172) -/

/-- A code that names none of the seventeen commands (R172). -/
def namesNoCommand (code : Byte) : Bool := code = 0 || decide (17 < code.toNat)

/-- BAD_COMMAND (R172): an empty request is answered BAD_LENGTH with command code 0, an unknown code BAD_COMMAND. -/
def execBadCommand (s : State) : Host.Outcome State Fault Refusal :=
  .next
    (if s.managementReady then
      match s.slot with
      | none => s
      | some [] => s.reply 0 (Reply.plain .badLength 0)
      | some (code :: _) => if namesNoCommand code then s.reply code (Reply.plain .badCommand 0) else s
    else s)

end Sys2Proof.Machine
end

