-- ==== Sys2Proof/Machine/Receive.lean ====
section
/-! DEFINITION. Characters and frames arriving on the two ports (chapter 2), and the commands CHARACTER_TAKEN,
HEAD_ARRIVAL, UPLINK_FRAME_END, SEGMENT_FRAME_END and FRAGMENT_SILENCE. -/

namespace Sys2Proof.Machine

/-! ### The uplink (R38 to R41) -/

/-- An uplink frame of a kind not accepted (R39). -/
def State.uplinkWrongKind (s : State) (f : Frame) : State :=
  s.post .uplinkWrongKind none (destAddress f.dest) (kindDetail f.code)

/-- A request reaches the Management Request Slot: it is placed in an empty Slot, and the engine asks for its
reservation in the same act; at an occupied Slot it is dropped with MGMT_OVERRUN (R40, R132, R169). -/
def State.placeRequest (s : State) (payload : List Byte) : State :=
  match s.slot with
  | some _ => s.post .mgmtOverrun none none 0
  | none =>
    let s := { s with slot := some payload }
    if s.managementAsks && decide (s.up.total < Config.upCapacity) then s.grantManagement else s

/-- A frame joins the tail of the Down Queue, or is dropped at a full one with DOWN_FULL (R41). -/
def State.joinDown (s : State) (f : DownFrame) : State :=
  if s.downQueue.length < Config.downCapacity then { s with downQueue := s.downQueue ++ [f] }
  else s.post .downFull none (destAddress f.dest) 0

/-- The kind of downstream frame a kind code names (R29). -/
def downKind (code : BitVec 4) : Option DownKind :=
  if code = DownKind.request.code then some .request
  else if code = DownKind.send.code then some .send
  else if code = DownKind.grant.code then some .grant
  else none

/-- The kind code of MREQ (R29). -/
def mreqCode : BitVec 4 := 7

/-- The fate of an uplink frame that has ended (R39): the first of the rows that fits. -/
def State.judgeUplink (s : State) (e : Ended) : State :=
  match e with
  | .damaged d => s.post .uplinkDamaged none none (codeDetail d.code)
  | .intact f =>
    if f.dest = s.policy.gateAddress then
      if f.code = mreqCode then s.placeRequest f.payload else s.uplinkWrongKind f
    else if f.code = mreqCode then s.uplinkWrongKind f
    else if f.code = DownKind.grant.code ∧ f.payload.length ≠ 2 then s.uplinkWrongKind f
    else
      match downKind f.code with
      | some k => s.joinDown { kind := k, dest := f.dest, payload := f.payload }
      | none => s.uplinkWrongKind f

/-- The uplink receiver with this frame, or none, open. -/
def State.setUplinkFrame (s : State) (f : Option OpenFrame) : State := { s with uplink := { s.uplink with frame := f } }

/-- The silence on the uplink ends, and no character is in progress any more (R27). -/
def State.hearUplink (s : State) : State := { s with uplink := { s.uplink with silence := 0, midCharacter := false } }

/-- An open uplink frame ends as a fragment, or as BAD_LEN if that was recorded (R35). -/
def State.fragmentUplink (s : State) : State :=
  match s.uplink.frame with
  | none => s
  | some f => (s.setUplinkFrame none).judgeUplink (.damaged (f.cut .fragment))

/-- A character framed by the uplink receiver (R32 to R35). -/
def State.frameUplink (s : State) (c : LineChar) : State :=
  if c.head then s.fragmentUplink.setUplinkFrame (some (OpenFrame.open c.value))
  else
    match s.uplink.frame with
    | none => s
    | some f =>
      match f.take c.value with
      | .stillOpen f' => s.setUplinkFrame (some f')
      | .ended e => (s.setUplinkFrame none).judgeUplink e

/-- A character taken on the uplink; in RESET and INIT it is ignored (R38). -/
def State.takeUplink (s : State) (c : LineChar) : State := if s.works then s.hearUplink.frameUplink c else s

/-! ### The segment (R32 to R37, R46, R48, R50, R54) -/

/-- The segment receiver in this state. -/
def State.setReceiver (s : State) (st : ReceiverState) : State := { s with segment := { s.segment with state := st } }

/-- An open segment frame ends as a fragment, or as BAD_LEN if that was recorded, and is handed to the engine (R35). -/
def State.fragmentSegment (s : State) : State :=
  match s.segment.state with
  | .inFrame f => (s.setReceiver .lineIdle).engineFrame (.damaged (f.cut .fragment))
  | _ => s

/-- A head character framed: it ends an open frame, opens the next and is reported as a head arrival (R32, R35,
R37). -/
def State.openSegment (s : State) (dest : Byte) : State :=
  (s.fragmentSegment.setReceiver (.inFrame (OpenFrame.open dest))).engineHead

/-- A body character framed (R32 to R34). -/
def State.bodySegment (s : State) (v : Byte) : State :=
  match s.segment.state with
  | .inFrame f =>
    match f.take v with
    | .stillOpen f' => s.setReceiver (.inFrame f')
    | .ended e => (s.setReceiver .lineIdle).engineFrame e
  | _ => s

/-- A run has begun: the character heard has itself lasted one character time (R48, worked example 3.2.1). -/
def State.countRun (s : State) : State :=
  { s with segment := { s.segment with activity := if s.segment.activity = 0 then 1 else s.segment.activity } }

/-- A start bit or a character comes before the step of the silence to two that is owed: the silence was shorter than two
(R35), so the run makes the step of that character time; at the jabber limit the step is that of JABBER and is owed as
such (R48, R49; log 3). -/
def State.resumeRun (s : State) : State :=
  let below := decide (s.segment.activity < s.policy.jabberLimit.toNat)
  { s with
    segment := { s.segment with
      activity := if s.fragmentOwed && below then s.segment.activity + 1 else s.segment.activity }
    owed := if s.fragmentOwed && !below then s.owed ++ [.jabber] else s.owed }

/-- A start bit on the segment: the silence is over and a character is in progress (R46). -/
def State.startSegment (s : State) : State :=
  { s with segment := { s.segment with silence := 0, midCharacter := true } }

/-- A character taken on the segment (R26, R46, R48, R50, R59): ignored in RESET and INIT; compared in ON_LINE; line
activity alone in ABORTING and MUTED; otherwise framed. The state its stop bit finds decides, wherever its start bit was
heard (log 25, a choice of the model). -/
def State.takeSegment (s : State) (c : LineChar) : State :=
  if s.works then
    let s := s.resumeRun.hearSegment
    match s.transmitter with
    | .onLine _ _ _ => s.compareEcho c
    | .aborting _ _ => s
    | _ =>
      match s.segment.state with
      | .muted => s
      | _ => if c.head then s.countRun.openSegment c.value else s.countRun.bodySegment c.value
  else s

/-- A start bit: the silence is over and a character is in progress (R27, R46); ignored in RESET and INIT. -/
def State.startBit (s : State) (p : Port) : State :=
  if s.works then
    match p with
    | .uplink => { s with uplink := { s.uplink with silence := 0, midCharacter := true } }
    | .segment => s.resumeRun.startSegment
  else s

/-- CHARACTER_TAKEN (R26, R33). -/
def execCharacterTaken (port : Port) (what : LineMoment) (s : State) : Host.Outcome State Fault Refusal :=
  match what, port with
  | .startBit, p => .next (s.startBit p)
  | .character c, .uplink => .next (s.takeUplink c)
  | .character c, .segment => .next (s.takeSegment c)

/-- HEAD_ARRIVAL (R32, R89): a head character that the segment receiver frames. -/
def execHeadArrival (value : Byte) (s : State) : Host.Outcome State Fault Refusal :=
  .next (if s.segmentFrames then s.takeSegment ⟨true, value⟩ else s)

/-- The occasion of SEGMENT_FRAME_END: the open frame waits for its second CHECK character. -/
def State.segmentAtEnd (s : State) : Bool :=
  s.segmentFrames &&
    match s.segment.state with
    | .inFrame f => f.atSecondCheck
    | _ => false

/-- SEGMENT_FRAME_END (R34, R37). -/
def execSegmentFrameEnd (value : Byte) (s : State) : Host.Outcome State Fault Refusal :=
  .next (if s.segmentAtEnd then s.takeSegment ⟨false, value⟩ else s)

/-- The occasion of UPLINK_FRAME_END: the open frame waits for its second CHECK character. -/
def State.uplinkAtEnd (s : State) : Bool :=
  s.works &&
    match s.uplink.frame with
    | some f => f.atSecondCheck
    | none => false

/-- UPLINK_FRAME_END (R34, R39). -/
def execUplinkFrameEnd (value : Byte) (s : State) : Host.Outcome State Fault Refusal :=
  .next (if s.uplinkAtEnd then s.takeUplink ⟨false, value⟩ else s)

/-! ### A silence of two character times (R35) -/

/-- The occasion of FRAGMENT_SILENCE on the uplink: an open frame, and the silence count about to step to two. -/
def State.uplinkFragmentDue (s : State) : Bool :=
  s.works && s.uplink.frame.isSome && !s.uplink.midCharacter && decide (s.uplink.silence = 1)

/-- FRAGMENT_SILENCE on the uplink, taken where its occasion holds (R35, R39). -/
def State.takeUplinkFragment (s : State) : State :=
  if s.uplinkFragmentDue then
    State.fragmentUplink { s with uplink := { s.uplink with silence := 2 } }
  else s

/-- FRAGMENT_SILENCE on the segment, taken where its occasion holds: the run ends too (R35, R48). -/
def State.takeSegmentFragment (s : State) : State :=
  if s.segmentFragmentDue then
    State.fragmentSegment { s with segment := { s.segment with silence := 2, activity := 0 } }
  else s

/-- FRAGMENT_SILENCE (R35). -/
def execFragmentSilence (port : Port) (s : State) : Host.Outcome State Fault Refusal :=
  match port with
  | .uplink => .next s.takeUplinkFragment
  | .segment => .next s.takeSegmentFragment

end Sys2Proof.Machine
end

