-- ==== Sys2Proof/Machine/Timers.lean ====
section
/-! DEFINITION. The passage of time (R46, R48, R83, R109, R150), and the commands CHARACTER_TIME, DEADLINE_EXPIRY and
TOKEN_EXPIRY. -/

namespace Sys2Proof.Machine

/-! ### The engine's timers -/

/-- The engagement in AWAITING whose watch counter stands one short of its deadline (R88). -/
def State.deadlineDue (s : State) : Option Engagement :=
  match s.engagement with
  | none => none
  | some g => if g.state = .awaiting ∧ s.watch + 1 = s.engagedDeadline g then some g else none

/-- DEADLINE_EXPIRY taken where its occasion holds. -/
def State.takeDeadline (s : State) : State :=
  match s.deadlineDue with
  | none => s
  | some g => s.expireDeadline g

/-- DEADLINE_EXPIRY (R88). -/
def execDeadlineExpiry (s : State) : Host.Outcome State Fault Refusal := .next s.takeDeadline

/-- The phase in HOLDING whose token counter stands at 1 (R109, R122). -/
def State.tokenDue (s : State) : Option Engagement :=
  match s.engagement with
  | none => none
  | some g => if g.state = .holding ∧ s.token = 1 then some g else none

/-- TOKEN_EXPIRY taken where its occasion holds. -/
def State.takeToken (s : State) : State :=
  match s.tokenDue with
  | none => s
  | some g => s.expireToken g

/-- TOKEN_EXPIRY (R122). -/
def execTokenExpiry (s : State) : Host.Outcome State Fault Refusal := .next s.takeToken

/-! ### Steps owed from the character time before (log 3) -/

/-- A threshold step taken, where its occasion still holds. -/
def State.takeThreshold (s : State) (t : Threshold) : State :=
  match t with
  | .deadline => s.takeDeadline
  | .token => s.takeToken
  | .jabber => s.takeJabber
  | .quiet => s.takeQuiet
  | .segmentFragment => s.takeSegmentFragment
  | .uplinkFragment => s.takeUplinkFragment
  | .missingEcho => s.takeMissingEcho
  | .abortEnd => s.takeAbortEnd

/-- The steps still owed when the next character time passes are taken first. Which of several is first is a free
value, for the spec gives no order to events at the same moment (R124, R127, R144). -/
def State.settleOwed : Nat → State → State
  | 0, s => { s with owed := [] }
  | n + 1, s =>
    match s.owed with
    | [] => s
    | [t] => State.takeThreshold { s with owed := [] } t
    | t :: u :: rest =>
      let k := Config.firstTaken s.freeCount % (rest.length + 2)
      State.settleOwed n
        (State.takeThreshold { s with owed := (t :: u :: rest).eraseIdx k, freeCount := s.freeCount + 1 }
          ((t :: u :: rest).getD k t))

/-! ### One character time -/

/-- The uplink silence count after one more character time (R27): two is the step of FRAGMENT_SILENCE while a frame is
open. -/
def UplinkReceiver.tick (r : UplinkReceiver) : UplinkReceiver × List Threshold :=
  if r.midCharacter then ({ r with silence := 0 }, [])
  else if r.silence = 1 ∧ r.frame.isSome = true then (r, [.uplinkFragment])
  else ({ r with silence := min (r.silence + 1) Config.silenceTop }, [])

/-- The silence counter after one more character time (R46), with the steps it owes: two is the step of
FRAGMENT_SILENCE while a frame is open (R35), the gap time that of LINE_QUIET (R47). While the gate drives the line the
counter stays at 0 (log 5). -/
def silenceTick (r : SegmentReceiver) (drives : Bool) (gap : Nat) : Nat × List Threshold :=
  if r.midCharacter || drives then (0, [])
  else if r.silence = 1 ∧ r.state.isInFrame = true then (1, [.segmentFragment])
  else if r.silence + 1 = gap then (r.silence, [.quiet])
  else (min (r.silence + 1) Config.silenceTop, [])

/-- The activity counter after one more character time (R48), with the step it owes: passing the jabber limit is the
step of JABBER (R49). It is held at 0 while the transmitter holds the line and while MUTED. A silence of two ends the run
(log 6); while that step is owed the run stands, and a start bit taken first makes its step (`State.resumeRun`). A character
in progress as the transmitter returns to IDLE begins a run (log 25, a choice of the model). -/
def activityTick (r : SegmentReceiver) (holdsLine : Bool) (limit : Nat) : Nat × List Threshold :=
  if holdsLine || r.state == .muted then (0, [])
  else if !r.midCharacter && decide (1 ≤ r.silence) then
    (if r.silence = 1 ∧ r.state.isInFrame = true then r.activity else 0, [])
  else if r.activity = 0 ∧ r.midCharacter = false then (0, [])
  else if limit ≤ r.activity then (r.activity, [.jabber])
  else (r.activity + 1, [])

/-- The segment receiver after one more character time. -/
def SegmentReceiver.tick (r : SegmentReceiver) (t : SegmentTransmitter) (p : Policy) : SegmentReceiver ×
    List Threshold :=
  let silence := silenceTick r t.drives p.gapTime.toNat
  let activity := activityTick r t.holdsLine p.jabberLimit.toNat
  ({ r with silence := silence.1, activity := activity.1 }, silence.2 ++ activity.2)

/-- The segment transmitter after one more character time: the character in progress is finished (R53, R56). A missing
echo (R54) and the end of the abort procedure (R56) are steps of their own. -/
def SegmentTransmitter.tick (t : SegmentTransmitter) : SegmentTransmitter × List Threshold :=
  match t with
  | .idle => (.idle, [])
  | .gapWait f => (.gapWait f, [])
  | .onLine f sent compared =>
    let t := SegmentTransmitter.onLine f (min (sent + 1) (f.length + 1)) compared
    (t, if t.echoMissing then [.missingEcho] else [])
  | .aborting left held =>
    if left.length ≤ 1 then (.aborting left held, [.abortEnd]) else (.aborting (left.drop 1) held, [])

/-- The watch counter steps in AWAITING; the deadline is the step of DEADLINE_EXPIRY (R83, R88). -/
def State.watchTick (s : State) : Nat × List Threshold :=
  match s.engagement with
  | none => (s.watch, [])
  | some g =>
    if g.state = .awaiting then
      if s.watch + 1 = s.engagedDeadline g then (s.watch, [.deadline]) else (s.watch + 1, [])
    else (s.watch, [])

/-- The token counter steps down in HOLDING; from 1 to 0 is the step of TOKEN_EXPIRY (R109, R122). -/
def State.tokenTick (s : State) : Nat × List Threshold :=
  match s.engagement with
  | none => (s.token, [])
  | some g =>
    if g.state = .holding then
      if s.token = 1 then (1, [.token]) else (s.token - 1, [])
    else (s.token, [])

/-- The uplink transmitter after one more segment character time: it has sent a number of characters that the spec does
not give (log 10); its last character is the step of UPLINK_TRANSMISSION_COMPLETE. -/
def UplinkTransmitter.tick (t : UplinkTransmitter) (sent : Nat) : UplinkTransmitter :=
  match t with
  | .idle => .idle
  | .sending wire position => .sending wire (max position (min (position + sent) (wire.length - 1)))

/-- One character time passes in STANDBY, RUN or DRAIN. -/
def State.passTime (s : State) : State :=
  let up := s.uplink.tick
  let seg := s.segment.tick s.transmitter s.policy
  let tx := s.transmitter.tick
  let watch := s.watchTick
  let token := s.tokenTick
  { s with
    clock := s.clock + 1
    uplink := up.1
    segment := seg.1
    transmitter := tx.1
    watch := watch.1
    token := token.1
    uplinkTransmitter := s.uplinkTransmitter.tick (Config.uplinkCharacters s.freeCount)
    freeCount := s.freeCount + 1
    owed := up.2 ++ seg.2 ++ tx.2 ++ watch.2 ++ token.2 }

/-- One character time passes in INIT: the Line Clock counts, an abort procedure goes on, and nothing else steps (R59,
R150, R156). -/
def State.passInitTime (s : State) : State :=
  let tx := s.transmitter.tick
  { s with clock := s.clock + 1, transmitter := tx.1, owed := tx.2 }

/-- CHARACTER_TIME (R150): the steps still owed are taken, then one character time passes. In RESET everything is held
(R155). -/
def execCharacterTime (s : State) : Host.Outcome State Fault Refusal :=
  let s' := State.settleOwed s.owed.length s
  match s'.device with
  | .reset => .next s'
  | .init => .next s'.passInitTime
  | .standby | .run | .drain => .next s'.passTime

end Sys2Proof.Machine
end

