-- ==== Sys2Proof/Machine/Admission.lean ====
section
/-! DEFINITION. The take and the admission of a downstream frame (chapter 4), and the command TAKE. -/

namespace Sys2Proof.Machine

/-! ### The checks (R71 to R75) -/

/-- Check 3: DISABLED (R71). -/
def checkAdmin (e : Entry) : Option Reason := if e.status = .disabled then some .disabled else none

/-- Check 5: the frame's kind against the entry's classes (R73). -/
def checkClass (kind : DownKind) (e : Entry) : Option Reason :=
  match kind with
  | .request | .send => if e.config.polled then none else some .notPolled
  | .grant => if e.config.token then none else some .tokenDenied

/-- Check 6: sizes (R74). -/
def checkSize (f : DownFrame) (e : Entry) : Option Reason :=
  match f.kind with
  | .request | .send => if e.config.maxRequest.toNat < f.payload.length then some .requestTooLong else none
  | .grant => if budgetOf f.payload = 0 then some .tokenDenied else none

/-- Check 7 for a GRANT: the budget after the clamp (R75). -/
def clampedBudget (f : DownFrame) (e : Entry) : Half :=
  if e.config.tokenCap.toNat < (budgetOf f.payload).toNat then e.config.tokenCap else budgetOf f.payload

/-- The detail of an admission's SUBSTITUTE (R77); BARRED carries the countdown after its decrease. -/
def refusalDetail (r : Reason) (f : DownFrame) (countdown : Nat) : Half :=
  match r with
  | .badDestination => kindDetail f.kind.code
  | .barred => BitVec.ofNat 16 countdown
  | .tokenDenied => budgetOf f.payload
  | .requestTooLong => BitVec.ofNat 16 f.payload.length
  | _ => 0

/-! ### Refusals and local answers (R68, R76, R77, R81) -/

/-- The frame's handling ends without the segment: a REQUEST or GRANT gets a SUBSTITUTE, a SEND's reservation is handed
back (R68, R76, R81). -/
def State.answerLocally (s : State) (f : DownFrame) (r : Reason) (detail : Half) : State :=
  match f.kind with
  | .send => s.releaseExchange
  | .request | .grant => s.admitExchange (substitute f.dest r detail)

/-- REFUSED counted and recorded on the entry, and posted (R76, R78). -/
def State.recordRefusal (s : State) (index : Option (Fin 64)) (outer : Option Byte) (r : Reason) (observed : Bool) :
    State :=
  (s.modifyEntry index (fun e => { e with statistics := e.statistics.addRefused }.record .refused)).post .refused index
    outer (r.detail observed)

/-- A refused frame (R76, R77). -/
def State.refuse (s : State) (f : DownFrame) (index : Option (Fin 64)) (outer : Option Byte) (r : Reason)
    (countdown : Nat) : State :=
  (s.recordRefusal index outer r false).answerLocally f r (refusalDetail r f countdown)

/-! ### Forwarding (R79, R80) -/

/-- The payload as forwarded: a clamped GRANT carries the lowered budget (R79). -/
def forwardedPayload (f : DownFrame) (e : Entry) : List Byte :=
  match f.kind with
  | .grant => if clampedBudget f e = budgetOf f.payload then f.payload else halfBytes (clampedBudget f e)
  | _ => f.payload

/-- TOKEN_CLAMPED, where check 7 lowers a GRANT's budget (R75). -/
def State.postClamp (s : State) (f : DownFrame) (i : Fin 64) (e : Entry) : State :=
  match f.kind with
  | .grant =>
    if clampedBudget f e = budgetOf f.payload then s
    else s.post .tokenClamped (some i) (some e.config.outer) (budgetOf f.payload)
  | _ => s

/-- The engagement a forwarded frame opens (R80). -/
def openedEngagement (f : DownFrame) (i : Fin 64) (e : Entry) (probe : Bool) (clock : Word) : Engagement :=
  { state := .sending
    kind := f.kind
    index := some i
    outer := f.dest
    inner := e.config.inner
    probe := probe
    timeOpened := clock
    headArrival := none
    budget := if f.kind = .grant then some (clampedBudget f e) else none
    seen := if f.kind = .grant then some 0 else none }

/-- A frame that admission lets through: rewritten, handed to the transmitter, and the Engagement opened (R79, R80). -/
def State.forward (s : State) (f : DownFrame) (i : Fin 64) (e : Entry) (probe : Bool) : State :=
  let s := s.postClamp f i e
  State.handOver { s with engagement := some (openedEngagement f i e probe s.clock), lastClosed := none }
    { dest := e.config.inner, kind := f.kind, src := 0xFF, payload := forwardedPayload f e }

/-- A broadcast SEND forwarded (R69, R79, R80): its engagement names no entry. -/
def State.forwardBroadcast (s : State) (f : DownFrame) : State :=
  State.handOver
    { s with
      engagement := some
        { state := .sending, kind := f.kind, index := none, outer := f.dest, inner := 0xFF, probe := false,
          timeOpened := s.clock, headArrival := none, budget := none, seen := none }
      lastClosed := none }
    { dest := 0xFF, kind := f.kind, src := 0xFF, payload := f.payload }

/-! ### Admission (R69 to R78) -/

/-- Checks 5 to 7 in ENFORCE, for a frame that check 4 let through (R73 to R75). -/
def State.admitChecked (s : State) (f : DownFrame) (i : Fin 64) (e : Entry) (probe : Bool) : State :=
  match (checkClass f.kind e).or (checkSize f e) with
  | some r => s.refuse f (some i) (some e.config.outer) r 0
  | none => s.forward f i e probe

/-- Checks 3 to 7 in ENFORCE (R71 to R75). The probe countdown of a BARRED entry is decreased, and loaded again when it
reaches 0, which lets the frame through as a probe (R72). -/
def State.admitEnforce (s : State) (f : DownFrame) (i : Fin 64) (e : Entry) : State :=
  match checkAdmin e with
  | some r => s.refuse f (some i) (some e.config.outer) r 0
  | none =>
    if e.status = .barred then
      if e.probeCountdown - 1 = 0 then
        (s.modifyEntry (some i) (fun e => { e with probeCountdown := s.policy.probeInterval.toNat })).admitChecked f i e
          true
      else
        (s.modifyEntry (some i) (fun e => { e with probeCountdown := e.probeCountdown - 1 })).refuse f (some i)
          (some e.config.outer) .barred (e.probeCountdown - 1)
    else s.admitChecked f i e false

/-- The failures that OBSERVE enforces too (R78). -/
def enforcedInObserve (kind : DownKind) : Reason → Bool
  | .badDestination => true
  | .unknown => true
  | .tokenDenied => true
  | .notPolled => kind = .request
  | _ => false

/-- The failures of checks 3, 5 and 6, in check order (R78). -/
def observedFailures (f : DownFrame) (e : Entry) : List Reason :=
  (checkAdmin e).toList ++ (checkClass f.kind e).toList ++ (checkSize f e).toList

/-- Checks 3 to 7 in OBSERVE (R78): an enforced failure refuses; otherwise the first overridden one is recorded with
the observed flag and the frame is forwarded. No probe flag is set. -/
def State.admitObserve (s : State) (f : DownFrame) (i : Fin 64) (e : Entry) : State :=
  match (observedFailures f e).find? (enforcedInObserve f.kind) with
  | some r => s.refuse f (some i) (some e.config.outer) r 0
  | none =>
    match observedFailures f e with
    | r :: _ => (s.recordRefusal (some i) (some e.config.outer) r true).forward f i e false
    | [] => s.forward f i e false

/-- The admission of a frame taken in RUN (R69, R70, R78). -/
def State.examine (s : State) (f : DownFrame) : State :=
  if f.dest = 0xFF then
    if f.kind = .send ∧ s.policy.broadcastAllowed = true then s.forwardBroadcast f
    else s.refuse f none none .badDestination 0
  else
    match findOuter s.table f.dest with
    | none => s.refuse f none (some f.dest) .unknown 0
    | some i =>
      match s.table.get i with
      | none => s.refuse f none (some f.dest) .unknown 0
      | some e =>
        match s.policy.mode with
        | .enforce => s.admitEnforce f i e
        | .observe => s.admitObserve f i e

/-- The reservation is granted and the head frame leaves the Down Queue, and it is handled by the device state (R66,
R67, R81). -/
def State.takeHead (s : State) : State :=
  match s.downQueue with
  | [] => s
  | f :: rest =>
    let s := { s with downQueue := rest, up := { s.up with exchangeHeld := true } }
    if s.device = .standby then s.answerLocally f .standby 0 else s.examine f

/-- TAKE (R66): with the total below 8 the take is made; otherwise it waits (R132, R133). -/
def execTake (s : State) : Host.Outcome State Fault Refusal :=
  .next (if s.exchangeAsks && decide (s.up.total < Config.upCapacity) then s.takeHead else s)

end Sys2Proof.Machine
end

