-- ==== Sys2Proof/Machine/Resets.lean ====
section
/-! DEFINITION. Hard reset, soft reset and the end of INIT (chapter 9), and the commands RESET_ASSERTED, RESET_RELEASED
and INITIALISATION_COMPLETES. -/

namespace Sys2Proof.Machine

/-- Every block at its hard-reset value (R159); the model's own queue and free-value counter go on. -/
def State.hardReset (s : State) : State := { State.reset with freeCount := s.freeCount, pending := s.pending }

/-- RESET_ASSERTED (R155, R159): whatever was in progress stops where it stands. -/
def execResetAsserted (s : State) : Host.Outcome State Fault Refusal := .next s.hardReset

/-- RESET_RELEASED (R155): the RESET state ends and INIT begins. -/
def execResetReleased (s : State) : Host.Outcome State Fault Refusal :=
  .next (if s.device = .reset then { s with device := .init } else s)

/-- An uplink receiver that starts afresh (R27, R38). -/
def UplinkReceiver.fresh : UplinkReceiver := { frame := none, silence := 0, midCharacter := false }

/-- A segment receiver that starts afresh: LINE_IDLE, both counters at 0 (R59). -/
def SegmentReceiver.fresh : SegmentReceiver := { state := .lineIdle, silence := 0, activity := 0, midCharacter := false }

/-- The Up Queue after a reset and through INIT (R140, R141, R142). -/
def UpQueue.empty : UpQueue :=
  { frames := [], exchangeHeld := false, managementHeld := false, preference := .management }

/-- An empty Event Queue (R148). -/
def EventQueue.empty : EventQueue := { records := [], lost := 0 }

/-- Initialisation completes: the gate enters STANDBY (R156). An abort procedure of a soft reset may go on. -/
def State.initialised (s : State) : State :=
  { s with
    device := .standby
    uplink := UplinkReceiver.fresh
    uplinkTransmitter := .idle
    segment := SegmentReceiver.fresh
    downQueue := []
    slot := none
    up := UpQueue.empty
    engagement := none }

/-- INITIALISATION_COMPLETES (R156). -/
def execInitialisationCompletes (s : State) : Host.Outcome State Fault Refusal :=
  .next (if s.device = .init then s.initialised else s)

/-- An entry at a soft reset: the configuration is kept, every runtime field takes its starting value, a pending update
is discarded (R25). -/
def Entry.restart (e : Entry) (probeInterval : Byte) : Entry := Entry.fresh e.config probeInterval

/-- The soft reset (R161): the transmitter is ordered to abort, the queues, the engagement and the runtime fields are
cleared, the configurations, the Policy Record, the rates and the Line Clock are kept, and INIT begins. -/
def State.softReset (s : State) : State :=
  { s with
    device := .init
    uplink := UplinkReceiver.fresh
    uplinkTransmitter := .idle
    segment := SegmentReceiver.fresh
    transmitter := s.transmitter.abort
    downQueue := []
    slot := none
    up := UpQueue.empty
    table := s.table.mapEntries (fun e => e.restart s.policy.probeInterval)
    tablePointer := 0
    engagement := none
    watch := 0
    token := 0
    lastClosed := none
    events := EventQueue.empty }

end Sys2Proof.Machine
end

