-- ==== Sys2Proof/Machine/Uplink.lean ====
section
/-! DEFINITION. The completion of an upstream frame (R44, R133, R134, R139), and the command
UPLINK_TRANSMISSION_COMPLETE. -/

namespace Sys2Proof.Machine

/-- A freed slot is considered for the waiting requests (R133, R134): one that waits alone is granted; of two the one
the preference names, which then names the other. Granting the Exchange Engine's request is the take (R66). -/
def State.grantFreed (s : State) (exchangeWaits managementWaits : Bool) : State :=
  match exchangeWaits, managementWaits with
  | false, false => s
  | true, false => s.takeHead
  | false, true => s.grantManagement
  | true, true =>
    match s.up.preference with
    | .exchange => State.takeHead { s with up := { s.up with preference := .management } }
    | .management => State.grantManagement { s with up := { s.up with preference := .exchange } }

/-- The setting of the uplink rate generator after a frame with this mark has left (R44, R63). -/
def rateAfter (current : Rate) (m : Option Mark) : Rate :=
  match m with
  | some (.uplinkRate r) => r
  | _ => current

/-- An upstream frame is complete: a SOFT_RESET reply brings the soft reset; any other frame frees its slot, a rate
mark takes effect, the freed slot is considered, and the next frame begins (R44, R139). -/
def State.completeUplink (s : State) : State :=
  match s.up.frames with
  | [] => { s with uplinkTransmitter := .idle }
  | f :: rest =>
    if f.mark = some .softReset then s.softReset
    else
      (State.grantFreed
        { s with
          up := { s.up with frames := rest }
          uplinkTransmitter := .idle
          uplinkRate := rateAfter s.uplinkRate f.mark }
        s.exchangeWaits s.managementAsks).beginUplink

/-- The uplink transmitter is sending a frame. -/
def UplinkTransmitter.isSending : UplinkTransmitter → Bool
  | .idle => false
  | .sending _ _ => true

/-- UPLINK_TRANSMISSION_COMPLETE (R44). -/
def execUplinkTransmissionComplete (s : State) : Host.Outcome State Fault Refusal :=
  .next (if s.uplinkTransmitter.isSending then s.completeUplink else s)

end Sys2Proof.Machine
end

