-- ==== Sys2Proof/Machine/Dispatch.lean ====
section
/-! DEFINITION. One arm for each command, each a direct call of its meaning. -/

namespace Sys2Proof.Machine

/-- A command's effect on everything but the queue of pending commands. -/
def exec (i : Instr) (s : State) : Host.Outcome State Fault Refusal :=
  match i with
  | .resetAsserted => Sys2Proof.Machine.execResetAsserted s
  | .resetReleased => Sys2Proof.Machine.execResetReleased s
  | .initialisationCompletes => Sys2Proof.Machine.execInitialisationCompletes s
  | .uplinkFrameEnd value => Sys2Proof.Machine.execUplinkFrameEnd value s
  | .fragmentSilence port => Sys2Proof.Machine.execFragmentSilence port s
  | .headArrival value => Sys2Proof.Machine.execHeadArrival value s
  | .segmentFrameEnd value => Sys2Proof.Machine.execSegmentFrameEnd value s
  | .jabber => Sys2Proof.Machine.execJabber s
  | .lineQuiet => Sys2Proof.Machine.execLineQuiet s
  | .transmissionComplete => Sys2Proof.Machine.execTransmissionComplete s
  | .echoFault heard => Sys2Proof.Machine.execEchoFault heard s
  | .abortEnd => Sys2Proof.Machine.execAbortEnd s
  | .deadlineExpiry => Sys2Proof.Machine.execDeadlineExpiry s
  | .tokenExpiry => Sys2Proof.Machine.execTokenExpiry s
  | .uplinkTransmissionComplete => Sys2Proof.Machine.execUplinkTransmissionComplete s
  | .take => Sys2Proof.Machine.execTake s
  | .identify => Sys2Proof.Machine.execIdentify s
  | .getState => Sys2Proof.Machine.execGetState s
  | .setState => Sys2Proof.Machine.execSetState s
  | .readPolicy => Sys2Proof.Machine.execReadPolicy s
  | .writePolicy => Sys2Proof.Machine.execWritePolicy s
  | .writeEntry => Sys2Proof.Machine.execWriteEntry s
  | .clearEntry => Sys2Proof.Machine.execClearEntry s
  | .readEntries => Sys2Proof.Machine.execReadEntries s
  | .readNext => Sys2Proof.Machine.execReadNext s
  | .findEntry => Sys2Proof.Machine.execFindEntry s
  | .release => Sys2Proof.Machine.execRelease s
  | .clearStats => Sys2Proof.Machine.execClearStats s
  | .takeEvents => Sys2Proof.Machine.execTakeEvents s
  | .readTime => Sys2Proof.Machine.execReadTime s
  | .setTime => Sys2Proof.Machine.execSetTime s
  | .abandon => Sys2Proof.Machine.execAbandon s
  | .softReset => Sys2Proof.Machine.execSoftReset s
  | .badCommand => Sys2Proof.Machine.execBadCommand s
  | .characterTaken port what => Sys2Proof.Machine.execCharacterTaken port what s
  | .characterTime => Sys2Proof.Machine.execCharacterTime s

end Sys2Proof.Machine
end

