-- ==== Sys2Proof/Safety.lean ====
section
/-! DEFINITION. What the spec says holds of the gate at all times, as predicates over states; the reading of a whole
frame by the framer; and next states written in one piece from the rules, which the statements compare with `exec`. -/

namespace Sys2Proof.Machine

/-! ### Queues and reservations (R64, R68, R82, R131, R144, R145, R169) -/

/-- The engagement still needs the Exchange Engine's reservation (R68): a REQUEST or GRANT until its answer is
admitted, a SEND until it closes. -/
def Engagement.needsPlace (g : Engagement) : Bool :=
  match g.state with
  | .settling _ => g.kind = .send
  | .sending | .awaiting | .receiving | .holding => true

/-- The state is one that the engagement's kind passes through (R82). -/
def Engagement.stateFitsKind (g : Engagement) : Bool :=
  match g.state with
  | .awaiting | .receiving => g.kind = .request
  | .holding => g.kind = .grant
  | .sending | .settling _ => true

/-- The place the Exchange Engine must hold (R68): none while the Engagement is IDLE. -/
def State.placeNeeded (s : State) : Bool :=
  match s.engagement with
  | none => false
  | some g => g.needsPlace

/-- How many publications the Up Queue holds (R131). -/
def UpQueue.publications (q : UpQueue) : Nat := q.frames.countP (fun f => f.kind = .publish)

/-- The bounds of the queues and the accounts of the reservations. -/
structure Accounts (s : State) : Prop where
  /-- The Down Queue holds up to 4 frames (R64). -/
  down : s.downQueue.length ≤ 4
  /-- Frames held plus slots reserved never exceed 8 (R131). -/
  total : s.up.total ≤ 8
  /-- The Up Queue never holds more than 6 publications (R131). -/
  publications : s.up.publications ≤ 6
  /-- The Event Queue holds up to 32 records (R144). -/
  events : s.events.records.length ≤ 32
  /-- Whenever the lost count is above 0, the queue holds 32 records (R145). -/
  lost : s.events.lost ≠ 0 → s.events.records.length = 32
  /-- The Exchange Engine holds a reservation exactly while its work needs one (R68). -/
  exchangePlace : s.up.exchangeHeld = s.placeNeeded
  /-- The Management Engine holds a reservation only for a request in the Slot (R169). -/
  managementPlace : s.up.managementHeld = true → s.slot.isSome = true
  /-- AWAITING and RECEIVING are states of a REQUEST, HOLDING of a GRANT (R82). -/
  kinds : ∀ g, s.engagement = some g → g.stateFitsKind = true

/-! ### Device state, engagement and transmitters (R42, R52, R58, R59, R140, R147, R158) -/

/-- A frame of the open engagement is in the segment transmitter: waiting, held behind an abort, or on the line. -/
def SegmentTransmitter.holdsFrame : SegmentTransmitter → Bool
  | .idle => false
  | .gapWait _ => true
  | .onLine _ _ _ => true
  | .aborting _ held => held.isSome

/-- The Engagement is in SENDING (R82). -/
def State.isSending (s : State) : Bool :=
  match s.engagement with
  | none => false
  | some g => g.state = .sending

/-- The uplink transmitter is sending the head frame of the Up Queue, or the queue is empty (R42, R43). -/
def sendsHead (t : UplinkTransmitter) (frames : List UpFrame) : Prop :=
  match t, frames with
  | .idle, [] => True
  | .sending wire _, f :: _ => wire = f.wire true ∨ wire = f.wire false
  | .idle, _ :: _ => False
  | .sending _ _, [] => False

/-- Nothing is received, queued, held or recorded, as in RESET and INIT (R38, R40, R59, R64, R140, R148). -/
structure Quiescent (s : State) : Prop where
  down : s.downQueue = []
  slot : s.slot = none
  up : s.up = UpQueue.empty
  events : s.events = EventQueue.empty
  uplink : s.uplink.frame = none
  segment : s.segment.state = .lineIdle

/-- How the device state, the Engagement and the two transmitters go together. -/
structure Lines (s : State) : Prop where
  /-- An engagement is open only in RUN and DRAIN (R66, R157, R158). -/
  engaged : s.engagement.isSome = true → s.maySend = true
  /-- In DRAIN an engagement is open (R157, R158). -/
  draining : s.device = .drain → s.engagement.isSome = true
  /-- The segment transmitter has a frame exactly while the Engagement is in SENDING (R52, R82). -/
  frame : s.transmitter.holdsFrame = s.isSending
  /-- The uplink transmitter sends the head of the Up Queue (R42). -/
  head : sendsHead s.uplinkTransmitter s.up.frames
  /-- In RESET and INIT nothing is received, queued or recorded. -/
  quiescent : s.works = false → Quiescent s

/-! ### The Policy Record and the Station Table (R4, R5, R7 to R10, R19, R163) -/

/-- A configuration within the ranges of R5, which is not the gate's address. -/
structure Configuration.Sound (c : Configuration) (gate : Byte) : Prop where
  outer : c.outer.toNat ≤ 253
  notGate : c.outer ≠ gate
  inner : c.inner.toNat ≤ 253
  classes : c.polled = true ∨ c.token = true
  maxRequest : c.maxRequest.toNat ≤ 240
  maxResponse : c.maxResponse.toNat ≤ 240
  deadline : if c.polled = true then 4 ≤ c.deadline.toNat ∧ c.deadline.toNat ≤ 4095 else c.deadline = 0
  tokenCap : if c.token = true then 1 ≤ c.tokenCap.toNat else c.tokenCap = 0
  publishDivider :
    if c.token = true then 1 ≤ c.publishDivider.toNat ∧ c.publishDivider.toNat ≤ 16 else c.publishDivider = 0

/-- A valid entry within the ranges of R5 and R7 to R10, under a policy. -/
structure Entry.Sound (e : Entry) (p : Policy) : Prop where
  config : e.config.Sound p.gateAddress
  /-- The status is DISABLED exactly while admin is DISABLED (R7). -/
  disabled : e.status = .disabled ↔ e.config.admin = .disabled
  /-- No entry is BARRED in OBSERVE (R7). -/
  barred : e.status = .barred → p.mode = .enforce
  /-- The stored strike count stays below the threshold (R8). -/
  strikes : e.strikes < p.strikeThreshold.toNat
  /-- The probe countdown is 1 to 255 (R9). -/
  countdown : 1 ≤ e.probeCountdown ∧ e.probeCountdown ≤ 255
  /-- The divider count is below the publish divider, and 0 without token class (R10). -/
  divider : if e.config.token = true then e.dividerCount < e.config.publishDivider.toNat else e.dividerCount = 0
  /-- A pending write passed the checks of R14. -/
  pending : ∀ c, e.pending = some (.write c) → c.Sound p.gateAddress

/-- A Policy Record within the ranges of R163. -/
structure Policy.Sound (p : Policy) : Prop where
  gateAddress : p.gateAddress.toNat ≤ 254
  gapTime : 3 ≤ p.gapTime.toNat ∧ p.gapTime.toNat ≤ 63
  jabberLimit : 250 ≤ p.jabberLimit.toNat ∧ p.jabberLimit.toNat ≤ 2047
  strikeThreshold : 1 ≤ p.strikeThreshold.toNat ∧ p.strikeThreshold.toNat ≤ 15
  probeInterval : 1 ≤ p.probeInterval.toNat
  rates : p.uplinkRate.inRange = true ∧ p.segmentRate.inRange = true

/-- The table and the policy at all times (R4, R19, R163). -/
structure TableSound (s : State) : Prop where
  policy : s.policy.Sound
  entries : ∀ i e, s.table.get i = some e → e.Sound s.policy
  /-- No two valid entries share an outer address (R4). -/
  outers : ∀ i j a b, s.table.get i = some a → s.table.get j = some b → a.config.outer = b.config.outer → i = j
  /-- No two valid entries share an inner address (R4). -/
  inners : ∀ i j a b, s.table.get i = some a → s.table.get j = some b → a.config.inner = b.config.inner → i = j
  /-- No pending update names an address configured in another entry (R4). -/
  claims : ∀ i j a b c, s.table.get i = some a → a.pending = some (.write c) → s.table.get j = some b → i ≠ j →
    c.outer ≠ b.config.outer ∧ c.inner ≠ b.config.inner
  /-- A pending update exists only on the engaged entry (R19). -/
  engaged : ∀ i e, s.table.get i = some e → e.pending.isSome = true → s.engagedIndex = some i

/-! ### The engaged entry and its counters (R6, R79, R80, R88, R109) -/

/-- What the record of an open engagement has in the table, and what the counters it governs hold. -/
structure EngagedEntry (s : State) (g : Engagement) (e : Entry) : Prop where
  outer : e.config.outer = g.outer
  inner : e.config.inner = g.inner
  /-- A REQUEST is forwarded only to an entry with polled class (R73, R78). -/
  polled : g.kind = .request → e.config.polled = true
  /-- The budget of a GRANT is at least 1 and at most the token cap (R74, R75). -/
  budget : g.kind = .grant → ∃ b, g.budget = some b ∧ 1 ≤ b.toNat ∧ b.toNat ≤ e.config.tokenCap.toNat
  /-- In HOLDING the token counter is at least 1 and does not exceed the token cap (R109). -/
  token : g.state = .holding → 1 ≤ s.token ∧ s.token ≤ e.config.tokenCap.toNat
  /-- In AWAITING the watch counter is below the deadline (R88, R89). -/
  watch : g.state = .awaiting → g.kind = .request ∧ s.watch < e.config.deadline.toNat

/-- The open engagement names an entry that is valid and unchanged in its configuration, or none for a broadcast
SEND. -/
def EngagedSound (s : State) : Prop :=
  ∀ g, s.engagement = some g →
    match g.index with
    | none => g.kind = .send ∧ g.state ≠ .awaiting ∧ g.state ≠ .holding
    | some j => ∃ e, s.table.get j = some e ∧ EngagedEntry s g e

/-! ### A whole frame read by the framer (R28, R32 to R34) -/

/-- What the framer has after taking these body characters in a frame that is open: it is still open, or it has ended.
A frame that has ended keeps nothing more (R34). -/
def OpenFrame.takeAll (f : OpenFrame) : List Byte → Framed
  | [] => .stillOpen f
  | v :: rest =>
    match f.take v with
    | .stillOpen f' => f'.takeAll rest
    | .ended e => .ended e

/-- What the framer has after a head character and these body characters, with no frame open before. -/
def readFrame (dest : Byte) (body : List Byte) : Framed := (OpenFrame.open dest).takeAll body

/-! ### Next states in one piece (R44, R97, R135, R144, R145, R170) -/

/-- Records posted one after another in one act: each is stored while the queue holds fewer than 32, and counted as
lost at a full queue (R144, R145). -/
def EventQueue.postAll (q : EventQueue) : List EventRecord → EventQueue
  | [] => q
  | r :: rest =>
    EventQueue.postAll
      (if q.records.length < 32 then { q with records := q.records ++ [r] }
       else { q with lost := if q.lost = 255 then 255 else q.lost + 1 }) rest

/-- An event record of this moment (R143, R144). -/
def State.eventNow (s : State) (kind : EventKind) (index : Option (Fin 64)) (outer : Option Byte) (detail : Half) :
    EventRecord :=
  { kind := kind, timestamp := s.clock, index := index, outer := outer, detail := detail }

/-- The state after these records are posted, and nothing else. -/
def State.posting (s : State) (records : List EventRecord) : State := { s with events := s.events.postAll records }

/-- The uplink transmitter when the Up Queue has these frames: one that is idle begins the head (R42), with the
attention flag of an Event Queue that is not empty (R43). -/
def uplinkAfter (t : UplinkTransmitter) (frames : List UpFrame) (q : EventQueue) : UplinkTransmitter :=
  match t, frames with
  | .idle, f :: _ => .sending (f.wire (!q.records.isEmpty)) 0
  | t, _ => t

/-- The state after these records are posted and this answer is admitted into the Exchange Engine's slot (R97 steps 2
and 3, R135). -/
def State.answering (s : State) (records : List EventRecord) (answer : UpFrame) : State :=
  { s with
    events := s.events.postAll records
    up := { s.up with frames := s.up.frames ++ [answer], exchangeHeld := false }
    uplinkTransmitter := uplinkAfter s.uplinkTransmitter (s.up.frames ++ [answer]) (s.events.postAll records) }

/-- The state after the Exchange Engine hands its reservation back: a waiting Management Engine is granted in the act
(R133, R136). -/
def State.releasing (s : State) : State :=
  { s with up := { s.up with exchangeHeld := false, managementHeld := s.up.managementHeld || s.managementAsks } }

/-- What the pending update of an entry leaves at its index (R16 to R18, R21). -/
def Entry.updated (e : Entry) (probeInterval : Byte) : Option Entry :=
  match e.pending with
  | none => some e
  | some (.write c) => some (applyWrite (some e) c probeInterval)
  | some .delete => none

/-- The UPDATE_APPLIED record of an entry's pending update (R21). -/
def Entry.updateRecords (e : Entry) (s : State) (j : Fin 64) : List EventRecord :=
  match e.pending with
  | none => []
  | some (.write c) => [s.eventNow .updateApplied (some j) (some c.outer) 0]
  | some .delete => [s.eventNow .updateApplied (some j) (some e.config.outer) 1]

/-- The state after an engagement closes to IDLE on the entry j, which the outcome has left as e: records, answer,
pending update, and in DRAIN the move to STANDBY (R97, R21, R158). -/
def State.closing (s : State) (j : Fin 64) (e : Entry) (records : List EventRecord) (answer : UpFrame)
    (last : Option LastClosed) : State :=
  { s with
    device := if s.device = .drain then .standby else s.device
    engagement := none
    lastClosed := last
    table := s.table.set j.val (e.updated s.policy.probeInterval)
    events := (s.events.postAll records).postAll (e.updateRecords s j)
    up := { s.up with frames := s.up.frames ++ [answer], exchangeHeld := false }
    uplinkTransmitter := uplinkAfter s.uplinkTransmitter (s.up.frames ++ [answer]) (s.events.postAll records) }

/-- The record of a REQUEST exchange that closes now (R103). -/
def State.closedNow (s : State) (j : Fin 64) (inner : Byte) : Option LastClosed :=
  some { index := j, inner := inner, time := s.clock }

/-- The end of an engagement that has been answered, or is owed no answer: a SEND hands its reservation back, the
Engagement moves to IDLE with the pending update applied, and in DRAIN the gate enters STANDBY (R97 steps 4 and 5,
R102). -/
def State.settled (s : State) (g : Engagement) (setsLastClosed : Bool) : State :=
  let s' := if g.kind = .send then s.releasing else s
  let s' := { s' with device := if s.device = .drain then .standby else s.device, engagement := none }
  match g.index with
  | none => s'
  | some j =>
    let s' := { s' with lastClosed := if setsLastClosed then s.closedNow j g.inner else s.lastClosed }
    match s.table.get j with
    | none => s'
    | some e =>
      { s' with table := s.table.set j.val (e.updated s.policy.probeInterval)
                events := s.events.postAll (e.updateRecords s j) }

/-- The Engagement enters SETTLING, which ends in the same act on a line already quiet (R102). -/
def State.settlingFrom (s : State) (g : Engagement) (setsLastClosed : Bool) : State :=
  if s.policy.gapTime.toNat ≤ s.segment.silence then s.settled g setsLastClosed
  else { s with engagement := some { g with state := .settling setsLastClosed } }

/-- A failure on an entry: its counter, its outcome, and a strike where the status is ENABLED; at the threshold the
entry is barred in ENFORCE, and its count returns to 0 in OBSERVE (R97 step 1, R98). -/
def Entry.failed (e : Entry) (p : Policy) (count : Statistics → Statistics) (k : OutcomeKind) : Entry :=
  let e' := { e with statistics := count e.statistics, outcomes := e.outcomes ||| k.bit, lastOutcome := some k }
  if e.status ≠ .enabled then e'
  else if e.strikes + 1 ≠ p.strikeThreshold.toNat then { e' with strikes := e.strikes + 1 }
  else if p.mode = .observe then { e' with strikes := 0 }
  else { e' with status := .barred, strikes := 0, probeCountdown := p.probeInterval.toNat }

/-- The record of the barring that a strike brings about, or in OBSERVE of WOULD_BAR (R98). -/
def Entry.strikeRecords (e : Entry) (s : State) (j : Fin 64) (outer : Byte) : List EventRecord :=
  if e.status = .enabled ∧ e.strikes + 1 = s.policy.strikeThreshold.toNat then
    [s.eventNow (if s.policy.mode = .observe then .wouldBar else .barred) (some j) (some outer) 0]
  else []

/-- A SUBSTITUTE: DEST 255, the SRC it answers for, and a payload of a reason code and a detail (R77, R96). -/
def substituteOf (src reason : Byte) (detail : Half) : UpFrame :=
  { kind := .substitute, dest := 0xFF, src := src, aux := false, payload := reason :: halfBytes detail, mark := none }

/-- A request with this code and these arguments is in READY: it is in the Slot, its reservation is held, and the
engines work (R169). -/
structure RequestReady (s : State) (code : Byte) (args : List Byte) : Prop where
  slot : s.slot = some (code :: args)
  place : s.up.managementHeld = true
  works : s.works = true

/-- The state after the reply is admitted: the MRSP carries the gate address as it then stands, the command code, a
status, a detail and the results; the Slot is empty (R135, R170, R193). -/
def State.replying (s : State) (code status : Byte) (detail : Half) (results : List Byte) (mark : Option Mark) :
    State :=
  let mrsp : UpFrame :=
    { kind := .mrsp, dest := 0xFF, src := s.policy.gateAddress, aux := false,
      payload := code :: status :: (halfBytes detail ++ results), mark := mark }
  { s with
    slot := none
    up := { s.up with frames := s.up.frames ++ [mrsp], managementHeld := false }
    uplinkTransmitter := uplinkAfter s.uplinkTransmitter (s.up.frames ++ [mrsp]) s.events }

/-- The segment receiver frames, a frame is open in it, and this is the value of its second CHECK character, which ends
the frame so (R34, R37). -/
structure SegmentEnds (s : State) (f : OpenFrame) (v : Byte) (e : Ended) : Prop where
  works : s.works = true
  free : s.transmitter.holdsLine = false
  frame : s.segment.state = .inFrame f
  last : f.atSecondCheck = true
  ends : f.take v = .ended e

/-- A frame is open on the segment, the character time that brings the silence to two has passed, and the step is owed
(R35, R46; log 3). -/
abbrev State.SilenceOwed (s : State) : Prop :=
  .segmentFragment ∈ s.owed ∧ s.works = true ∧ s.transmitter.holdsLine = false ∧ s.segment.state ≠ .lineIdle ∧
    s.segment.state ≠ .muted ∧ s.segment.midCharacter = false ∧ s.segment.silence = 1

/-- The state as a start bit or a character finds it: a silence of two that is owed has not come about, so the run makes its
step of that character time, and at the jabber limit owes it (R35, R48, R49; log 3). -/
def State.resumed (s : State) : State :=
  { s with
    segment := { s.segment with
      activity := if s.SilenceOwed ∧ s.segment.activity < s.policy.jabberLimit.toNat then s.segment.activity + 1
        else s.segment.activity }
    owed := if s.SilenceOwed ∧ s.policy.jabberLimit.toNat ≤ s.segment.activity then s.owed ++ [.jabber] else s.owed }

/-- The segment receiver after a frame has ended on its second CHECK character: no silence, and the run goes on (R34,
R46, R48). -/
def State.frameOver (s : State) : State :=
  { s.resumed with
    segment :=
      { state := .lineIdle, silence := 0,
        activity := if s.resumed.segment.activity = 0 then 1 else s.resumed.segment.activity, midCharacter := false } }

/-- This command ends the frame open on the segment as damaged with this kind, and this is the state it leaves but for the
engine: the second CHECK character does not agree (R34), or a silence of two character times ends a fragment and the run
(R35, R48). -/
def EndsDamaged (s : State) (c : Instr) (d : Damage) (s' : State) : Prop :=
  (∃ f v, c = .segmentFrameEnd v ∧ SegmentEnds s f v (.damaged d) ∧ s' = s.frameOver) ∨
  ∃ f, c = .fragmentSilence .segment ∧ s.works = true ∧ s.transmitter.holdsLine = false ∧
    s.segment.state = .inFrame f ∧ s.segment.midCharacter = false ∧ s.segment.silence = 1 ∧
    d = f.damage.getD .fragment ∧
    s' = { s with segment := { state := .lineIdle, silence := 2, activity := 0, midCharacter := false } }

/-- The Engagement is open on this valid entry. -/
structure Engaged (s : State) (g : Engagement) (j : Fin 64) (e : Entry) : Prop where
  opened : s.engagement = some g
  index : g.index = some j
  entry : s.table.get j = some e
  device : s.device = .run ∨ s.device = .drain

/-- The conditions of a take (R66), with the frame it takes and the rest of the Down Queue. -/
structure MayTake (s : State) (f : DownFrame) (rest : List DownFrame) : Prop where
  noSoftReset : s.softResetUnderWay = false
  idle : s.engagement = none
  head : s.downQueue = f :: rest
  place : s.up.exchangeHeld = false
  room : s.up.total < 8

/-! ### Takes and admission (R66 to R81) -/

/-- The refusal of a frame that leaves the segment alone: its records, then a SUBSTITUTE for a REQUEST or GRANT, and
for a SEND the reservation handed back (R68, R76, R77, R81). -/
def State.refusing (s : State) (f : DownFrame) (records : List EventRecord) (reason : Byte) (detail : Half) : State :=
  if f.kind = .send then (s.posting records).releasing else s.answering records (substituteOf f.dest reason detail)

/-- A refusal counted on its entry (R76). -/
def Entry.refused (e : Entry) : Entry :=
  { e with
    statistics := { e.statistics with refused := satInc e.statistics.refused }
    outcomes := e.outcomes ||| 0x20
    lastOutcome := some .refused }

/-- Check 5 or 6 fails a frame for an entry, with this reason code and detail (R73, R74, R77). -/
def FailsChecks (f : DownFrame) (e : Entry) (reason : Byte) (detail : Half) : Prop :=
  (f.kind ≠ .grant ∧ e.config.polled = false ∧ reason = 5 ∧ detail = 0) ∨
  (f.kind = .grant ∧ e.config.token = false ∧ reason = 6 ∧ detail = budgetOf f.payload) ∨
  (f.kind ≠ .grant ∧ e.config.polled = true ∧ e.config.maxRequest.toNat < f.payload.length ∧ reason = 7 ∧
    detail = BitVec.ofNat 16 f.payload.length) ∨
  (f.kind = .grant ∧ e.config.token = true ∧ budgetOf f.payload = 0 ∧ reason = 6 ∧ detail = 0)

/-- A frame passes checks 5 and 6 for an entry (R73, R74). -/
structure PassesChecks (f : DownFrame) (e : Entry) : Prop where
  polled : f.kind ≠ .grant → e.config.polled = true ∧ f.payload.length ≤ e.config.maxRequest.toNat
  token : f.kind = .grant → e.config.token = true ∧ budgetOf f.payload ≠ 0

/-- A frame handed to the transmitter in RUN: held behind an abort procedure, begun at once on a quiet line, or in
GAP_WAIT (R52, R79). -/
def State.handing (s : State) (f : LineFrame) : State :=
  match s.transmitter with
  | .aborting left _ => { s with transmitter := .aborting left (some f) }
  | _ =>
    if s.policy.gapTime.toNat ≤ s.segment.silence then
      { s with transmitter := .onLine f 0 0, segment := { s.segment with silence := 0, activity := 0 } }
    else { s with transmitter := .gapWait f }

/-- A frame forwarded to an entry, after these records: a GRANT above the token cap is clamped with TOKEN_CLAMPED, the
engagement opens in SENDING, the Last-Closed record is cleared, and the rewritten frame is handed over (R75, R79,
R80). -/
def State.forwarding (s : State) (f : DownFrame) (i : Fin 64) (e : Entry) (probe : Bool) (records : List EventRecord) :
    State :=
  let clamped := f.kind = .grant ∧ e.config.tokenCap.toNat < (budgetOf f.payload).toNat
  State.handing
    { s with
      events := s.events.postAll (records ++
        if clamped then [s.eventNow .tokenClamped (some i) (some e.config.outer) (budgetOf f.payload)] else [])
      up := { s.up with exchangeHeld := true }
      lastClosed := none
      engagement := some
        { state := .sending, kind := f.kind, index := some i, outer := f.dest, inner := e.config.inner, probe := probe,
          timeOpened := s.clock, headArrival := none,
          budget := if f.kind = .grant then some (if clamped then e.config.tokenCap else budgetOf f.payload) else none,
          seen := if f.kind = .grant then some 0 else none } }
    { dest := e.config.inner, kind := f.kind, src := 0xFF,
      payload := if clamped then halfBytes e.config.tokenCap else f.payload }

/-- The frame taken is in RUN for this valid entry (R66, R70). -/
structure TakesFor (s : State) (f : DownFrame) (rest : List DownFrame) (i : Fin 64) (e : Entry) : Prop where
  may : MayTake s f rest
  run : s.device = .run
  sound : TableSound s
  entry : s.table.get i = some e
  dest : f.dest = e.config.outer

/-- The Exchange Engine's request waits: every condition of R66 holds but the reservation, and the total stands at 8
(R132, R133). -/
structure ExchangeWaits (s : State) : Prop where
  device : s.device = .run ∨ s.device = .standby
  noSoftReset : s.softResetUnderWay = false
  idle : s.engagement = none
  head : s.downQueue ≠ []
  place : s.up.exchangeHeld = false
  full : s.up.total = 8

/-- The Management Engine's request waits: the Slot is occupied, no reservation is held, and no soft reset is under way
(R132, R133). -/
structure ManagementWaits (s : State) : Prop where
  works : s.works = true
  noSoftReset : s.softResetUnderWay = false
  slot : s.slot.isSome = true
  place : s.up.managementHeld = false

/-! ### Truncation, the abort procedure and the Returns of the gate (R51, R56, R123) -/

/-- The segment receiver as its frame is cut off, now in this state: a silence of two that is owed has come about, and the
run is over (R46, R48; log 3). -/
def State.cutOff (s : State) (st : ReceiverState) : State :=
  { s with
    segment := { s.segment with
      state := st
      silence := if s.SilenceOwed then 2 else s.segment.silence
      activity := if s.SilenceOwed ∨ st = .muted then 0 else s.segment.activity } }

/-- A frame open in the segment receiver is truncated by an order of the Exchange Engine (R51). -/
def State.truncated (s : State) : State :=
  match s.segment.state with
  | .inFrame _ => s.cutOff .lineIdle
  | _ => s

/-- A RETURN as the gate sends it: the aux flag marks a reclaimed phase (R117, R123). -/
def returnOf (src : Byte) (reclaimed : Bool) (remaining : Nat) : UpFrame :=
  { kind := .returned, dest := 0xFF, src := src, aux := reclaimed, payload := halfBytes (BitVec.ofNat 16 remaining),
    mark := none }

/-- The answer to a frame given up in SENDING: none for a SEND (R85, R86). -/
def State.givingUp (s : State) (g : Engagement) (records : List EventRecord) (reason : Byte) (detail : Half) : State :=
  if g.kind = .send then s.posting records else s.answering records (substituteOf g.outer reason detail)

/-! ### Management (R14, R164, R172) -/

/-- The seventeen commands with their codes and their LEN, command code included (R172, section 12.5). -/
def requestTable : List (Instr × Byte × Nat) :=
  [ (.identify, 1, 1), (.getState, 2, 1), (.setState, 3, 2), (.readPolicy, 4, 1), (.writePolicy, 5, 15)
  , (.writeEntry, 6, 14), (.clearEntry, 7, 2), (.readEntries, 8, 3), (.readNext, 9, 2), (.findEntry, 10, 2)
  , (.release, 11, 2), (.clearStats, 12, 2), (.takeEvents, 13, 2), (.readTime, 14, 1), (.setTime, 15, 5)
  , (.abandon, 16, 1), (.softReset, 17, 1) ]

/-- The first rule of a list, in order, that does not hold is the one with this code and this status (R14, R164). -/
def FirstFails (rules : List (Prop × Byte × Byte)) (code status : Byte) : Prop :=
  ∃ before rule after, rules = before ++ (rule, code, status) :: after ∧ (∀ r ∈ before, r.1) ∧ ¬ rule

/-- Every rule of a list holds. -/
def AllHold (rules : List (Prop × Byte × Byte)) : Prop := ∀ r ∈ rules, r.1

/-- A rate step lies within its mode's range (P6 of R164). -/
def Rate.legal (r : Rate) : Prop :=
  match r.mode with
  | .normal => 64 ≤ r.step.toNat ∧ r.step.toNat ≤ 1023
  | .fractional => 2 ≤ r.step.toNat ∧ r.step.toNat ≤ 1023

/-- Rules P1 to P7, each with its code and the status of its failure (R164). -/
def policyRules (t : Table) (p : Policy) : List (Prop × Byte × Byte) :=
  [ (p.gateAddress.toNat ≤ 254, 0x11, 5)
  , (3 ≤ p.gapTime.toNat ∧ p.gapTime.toNat ≤ 63, 0x12, 5)
  , (250 ≤ p.jabberLimit.toNat ∧ p.jabberLimit.toNat ≤ 2047, 0x13, 5)
  , (1 ≤ p.strikeThreshold.toNat ∧ p.strikeThreshold.toNat ≤ 15, 0x14, 5)
  , (1 ≤ p.probeInterval.toNat, 0x15, 5)
  , (p.uplinkRate.legal ∧ p.segmentRate.legal, 0x16, 5)
  , ((∀ i e, t.get i = some e → e.config.outer ≠ p.gateAddress), 0x17, 6) ]

/-- Rules E1 to E10 for a configuration as received, each with its code and the status of its failure (R14, R15). -/
def entryRules (t : Table) (gateAddress index : Byte) (c : Configuration) : List (Prop × Byte × Byte) :=
  [ (index.toNat ≤ 63, 1, 4)
  , (c.outer.toNat ≤ 253 ∧ c.outer ≠ gateAddress, 2, 5)
  , (c.inner.toNat ≤ 253, 3, 5)
  , (c.polled = true ∨ c.token = true, 4, 5)
  , (c.maxRequest.toNat ≤ 240 ∧ c.maxResponse.toNat ≤ 240, 5, 5)
  , (c.polled = true → 4 ≤ c.deadline.toNat ∧ c.deadline.toNat ≤ 4095, 6, 5)
  , ((c.token = true → 1 ≤ c.tokenCap.toNat) ∧ (c.token = false → c.tokenCap = 0), 7, 5)
  , (c.token = true → 1 ≤ c.publishDivider.toNat ∧ c.publishDivider.toNat ≤ 16, 8, 5)
  , ((∀ (i : Fin 64) e, i.val ≠ index.toNat → t.get i = some e →
      e.config.outer ≠ c.outer ∧ ∀ d, e.pending = some (.write d) → d.outer ≠ c.outer), 9, 6)
  , ((∀ (i : Fin 64) e, i.val ≠ index.toNat → t.get i = some e →
      e.config.inner ≠ c.inner ∧ ∀ d, e.pending = some (.write d) → d.inner ≠ c.inner), 10, 6) ]

/-- What a policy write does to one valid entry (R166). -/
def Entry.repoliced (e : Entry) (old new : Policy) : Entry :=
  { e with
    strikes :=
      if old.strikeThreshold ≠ new.strikeThreshold ∨
          (old.mode = .enforce ∧ new.mode = .observe ∧ e.status = .barred) then 0
      else e.strikes
    status := if old.mode = .enforce ∧ new.mode = .observe ∧ e.status = .barred then .enabled else e.status }

/-- The counters of the segment as a policy write finds them: a step that was owed to the old gap or the old limit is an
ordinary step where the write moves it (R46, R48, R165; log 3). -/
def State.recounted (s : State) (new : Policy) : State :=
  { s with
    segment := { s.segment with
      silence :=
        if s.policy.gapTime ≠ new.gapTime ∧ .quiet ∈ s.owed ∧ s.works = true ∧ s.segment.midCharacter = false ∧
            s.sdrv = false ∧ s.segment.silence + 1 = s.policy.gapTime.toNat then s.segment.silence + 1
        else s.segment.silence
      activity :=
        if s.policy.jabberLimit ≠ new.jabberLimit ∧ .jabber ∈ s.owed ∧ s.works = true ∧
            s.transmitter.holdsLine = false ∧ s.segment.state ≠ .muted ∧
            s.policy.jabberLimit.toNat ≤ s.segment.activity then s.segment.activity + 1
        else s.segment.activity }
    owed := s.owed.filter fun t =>
      ¬ (s.policy.gapTime ≠ new.gapTime ∧ t = .quiet ∨ s.policy.jabberLimit ≠ new.jabberLimit ∧ t = .jabber) }

/-- The RELEASED records of a change to OBSERVE, in ascending order of index (R166). -/
def State.releasedRecords (s : State) (new : Policy) : List EventRecord :=
  if s.policy.mode = .enforce ∧ new.mode = .observe then
    (List.finRange 64).filterMap fun i =>
      match s.table.get i with
      | none => none
      | some e => if e.status = .barred then some (s.eventNow .released (some i) (some e.config.outer) 2) else none
  else []

end Sys2Proof.Machine
end

