-- ==== Sys2Proof/Certificates/Slice0/Obligations.lean ====
section
/-! DEFINITION. The statements for the provers. Each docstring names the rules of spec/ it comes from. -/

open Sys2Proof Sys2Proof.Machine

/-! ### The step and the shape of every command -/

/-- A step takes the command at the front of the queue and runs it with the queue's rest; on an empty queue the block
idles (log 17, DESIGN CHOICE). -/
def Obligations.StepRunsFrontCommand : Prop :=
  (∀ (c : Instr) (rest : List Instr) (s : State),
    step { s with pending := c :: rest } = exec c { s with pending := rest }) ∧
  ∀ s : State, s.pending = [] → step s = .next s

/-- Every command answers a next state, and leaves the queue of pending commands alone. -/
def Obligations.EveryCommandAnswers : Prop :=
  ∀ (c : Instr) (s : State), ∃ t, exec c s = .next t ∧ t.pending = s.pending

/-! ### Invariants -/

/-- The invariants hold after reset (R159, R163). -/
def Obligations.ResetIsSound : Prop :=
  Accounts State.reset ∧ Lines State.reset ∧ TableSound State.reset ∧ EngagedSound State.reset

/-- The queues keep their bounds and the reservations their accounts (R64, R68, R82, R131, R144, R145, R169). -/
def Obligations.StepKeepsAccounts : Prop := ∀ s t : State, Accounts s → step s = .next t → Accounts t

/-- Device state, Engagement and transmitters stay in agreement (R42, R52, R58, R59, R140, R157, R158). -/
def Obligations.StepKeepsLines : Prop := ∀ s t : State, Lines s → step s = .next t → Lines t

/-- Policy, table and the counters of the engaged entry stay within their ranges (R4, R5, R7 to R10, R19, R88, R109,
R163). The agreement of device state and Engagement is the premise that rules out states no run reaches: a policy write
is carried out only in STANDBY, where no engagement is open. -/
def Obligations.StepKeepsTables : Prop :=
  ∀ s t : State, Lines s → TableSound s → EngagedSound s → step s = .next t → TableSound t ∧ EngagedSound t

/-! ### Resets and INIT -/

/-- The hard reset (R155, R159): every block takes its value, from any state, and the uplink transmit line rests at 1.
The model's own queue and counter of free values go on (log 16). -/
def Obligations.HardResetValues : Prop :=
  ∀ s : State, ∃ t, exec .resetAsserted s = .next t ∧
    t.device = .reset ∧
    (∀ i, t.table.get i = none) ∧ t.tablePointer = 0 ∧
    t.policy =
      { gateAddress := 254, gapTime := 4, jabberLimit := 300, strikeThreshold := 3, probeInterval := 8,
        broadcastAllowed := true, mode := .enforce, uplinkRate := { mode := .normal, step := 1014 },
        segmentRate := { mode := .normal, step := 1014 } } ∧
    t.uplinkRate = { mode := .normal, step := 1014 } ∧ t.segmentRate = { mode := .normal, step := 1014 } ∧
    t.downQueue = [] ∧ t.slot = none ∧
    t.up = { frames := [], exchangeHeld := false, managementHeld := false, preference := .management } ∧
    t.engagement = none ∧ t.watch = 0 ∧ t.token = 0 ∧ t.lastClosed = none ∧
    t.events = { records := [], lost := 0 } ∧ t.clock = 0 ∧
    t.segment = { state := .lineIdle, silence := 0, activity := 0, midCharacter := false } ∧
    t.transmitter = .idle ∧ t.uplink = { frame := none, silence := 0, midCharacter := false } ∧
    t.uplinkTransmitter = .idle ∧ t.owed = [] ∧
    t.hold = true ∧ t.attn = false ∧ t.sdrv = false ∧ t.utxd = some true ∧
    t.freeCount = s.freeCount ∧ t.pending = s.pending

/-- While RESET is asserted every block is held at its hard-reset value: only the release of RESET has an effect
(R155). -/
def Obligations.ResetHoldsEveryBlock : Prop :=
  ∀ (c : Instr) (s : State), c ≠ .resetReleased → exec c s.hardReset = .next s.hardReset

/-- The release of RESET begins INIT (R155), and the completion of initialisation brings STANDBY with HOLD released,
fresh receivers and empty queues (R156). -/
def Obligations.InitialisationBringsStandby : Prop :=
  (∀ s : State, s.device = .reset → exec .resetReleased s = .next { s with device := .init }) ∧
  ∀ s : State, s.device = .init → ∃ t, exec .initialisationCompletes s = .next t ∧ t.hold = false ∧
    t = { s with
      device := .standby
      uplink := { frame := none, silence := 0, midCharacter := false }
      uplinkTransmitter := .idle
      segment := { state := .lineIdle, silence := 0, activity := 0, midCharacter := false }
      downQueue := []
      slot := none
      up := { frames := [], exchangeHeld := false, managementHeld := false, preference := .management }
      engagement := none }

/-- In INIT both receivers ignore every character and step no counter, HOLD is asserted, and the Line Clock counts
while an abort procedure goes on (R38, R59, R65, R150, R156). -/
def Obligations.InitIgnoresCharacters : Prop :=
  ∀ s : State, s.device = .init →
    s.hold = true ∧
    (∀ p w, exec (.characterTaken p w) s = .next s) ∧
    (∀ v, exec (.headArrival v) s = .next s ∧ exec (.segmentFrameEnd v) s = .next s ∧
      exec (.uplinkFrameEnd v) s = .next s) ∧
    (∀ p, exec (.fragmentSilence p) s = .next s) ∧
    exec .jabber s = .next s ∧ exec .lineQuiet s = .next s ∧
    (s.owed = [] → s.transmitter = .idle → exec .characterTime s = .next { s with clock := s.clock + 1 }) ∧
    ∀ a b left held, s.owed = [] → s.transmitter = .aborting (a :: b :: left) held →
      exec .characterTime s = .next { s with clock := s.clock + 1, transmitter := .aborting (b :: left) held }

/-- SOFT_RESET is answered OK with its mark, and from then a soft reset is under way (R160, R186). It takes place as
that reply is complete on the uplink (R44, R161): configurations, Policy Record, rates and Line Clock are kept; runtime
fields start afresh (R25); INIT begins. Two clauses are the model's choice: the receivers' counters are fresh from here
on, where R59 and R46 make them so as INIT ends (log 24), and a frame held behind an abort procedure is given up (log
8). -/
def Obligations.SoftResetTakesPlace : Prop :=
  (∀ s : State, RequestReady s 17 [] → ∃ t, exec .softReset s = .next t ∧
     t = s.replying 17 0 0 [] (some .softReset) ∧ t.softResetUnderWay = true) ∧
  ∀ (s : State) (f : UpFrame) (rest : List UpFrame) (wire : List LineChar) (n : Nat),
    s.up.frames = f :: rest → f.mark = some .softReset → s.uplinkTransmitter = .sending wire n →
    ∃ t, exec .uplinkTransmissionComplete s = .next t ∧
      (∀ i, t.table.get i = (s.table.get i).map (fun e => Entry.fresh e.config s.policy.probeInterval)) ∧
      t.hold = true ∧ t.attn = false ∧
      t = { s with
        device := .init
        uplink := { frame := none, silence := 0, midCharacter := false }
        uplinkTransmitter := .idle
        segment := { state := .lineIdle, silence := 0, activity := 0, midCharacter := false }
        transmitter := s.transmitter.abort
        downQueue := []
        slot := none
        up := { frames := [], exchangeHeld := false, managementHeld := false, preference := .management }
        table := t.table
        tablePointer := 0
        engagement := none
        watch := 0
        token := 0
        lastClosed := none
        events := { records := [], lost := 0 } }

/-! ### Frames and records as characters -/

/-- A body character in an open frame (R33, R34): a discarding frame keeps nothing; KIND, SRC, LEN and PAYLOAD are kept
and shifted in; a LEN above 240 turns to discarding with BAD_LEN; the first CHECK character is kept and not shifted in;
the second ends the frame, intact where the two agree with the register and damaged with CHECK where they differ. That
a LEN above 240 is itself neither kept nor shifted in is log 26, the model's choice. -/
def Obligations.FramerTakesBodyCharacter : Prop :=
  ∀ (f : OpenFrame) (v : Byte),
    (∀ d, f.damage = some d → f.take v = .stillOpen f) ∧
    (f.damage = none →
      (f.kept.length < 3 → f.take v = .stillOpen { f with kept := f.kept ++ [v], register := crcByte f.register v }) ∧
      (f.kept.length = 3 → v.toNat ≤ 240 →
        f.take v = .stillOpen { f with kept := f.kept ++ [v], register := crcByte f.register v }) ∧
      (f.kept.length = 3 → 240 < v.toNat → f.take v = .stillOpen { f with damage := some .badLen }) ∧
      ∀ len : Byte, f.kept[3]? = some len →
        (f.kept.length < len.toNat + 4 →
          f.take v = .stillOpen { f with kept := f.kept ++ [v], register := crcByte f.register v }) ∧
        (f.kept.length = len.toNat + 4 → f.take v = .stillOpen { f with kept := f.kept ++ [v] }) ∧
        (f.kept.length = len.toNat + 5 → half (f.kept.getD (len.toNat + 4) 0) v = f.register →
          f.take v = .ended (.intact
            { dest := f.kept.getD 0 0, code := kindCode (f.kept.getD 1 0), src := f.kept.getD 2 0,
              payload := (f.kept.drop 4).take len.toNat })) ∧
        (f.kept.length = len.toNat + 5 → half (f.kept.getD (len.toNat + 4) 0) v ≠ f.register →
          f.take v = .ended (.damaged .check)))

/-- Decode of encode: a frame sent with any fields and any payload of up to 240 characters is read back intact with
those fields by a framer that had no frame open, and ends only on its last character; with any other two CHECK
characters it is damaged with CHECK (R28, R31 to R34). -/
def Obligations.FramesReadBack : Prop :=
  ∀ (dest kind src : Byte) (payload : List Byte), payload.length ≤ 240 →
    let rest := [kind, src, BitVec.ofNat 8 payload.length] ++ payload
    withCheck (frameBody dest kind src payload) = dest :: (rest ++ halfBytes (crc (dest :: rest))) ∧
    readFrame dest (rest ++ halfBytes (crc (dest :: rest))) =
      .ended (.intact { dest := dest, code := kindCode kind, src := src, payload := payload }) ∧
    (∀ c1 c2 : Byte, half c1 c2 ≠ crc (dest :: rest) → readFrame dest (rest ++ [c1, c2]) = .ended (.damaged .check)) ∧
    ∀ n, n < rest.length + 2 → ∃ f, readFrame dest ((rest ++ halfBytes (crc (dest :: rest))).take n) = .stillOpen f

/-- The KIND character carries the code in its low bits, aux in bit 6 and attention in bit 7, and is read by its four
low bits alone, so that 31h and 71h are read as RESPONSE (R191); the check of the nine characters 31h to 39h is 29B1h
(R31). An upstream frame is sent as DEST, the one head character, then KIND with the code of its kind, its aux flag and
the attention flag chosen as it begins, SRC, LEN, PAYLOAD and CHECK (R28, R43, R191); the KIND character on the segment
is the code alone (R79). Numbers are taken high character first (R192); the Policy Record and the configuration are
read back from the characters they are sent as, and each yes/no and mode character of a WRITE_POLICY is 0 or any other
value (R164, R193). -/
def Obligations.NumbersAndRecordsRead : Prop :=
  ((∀ (code : BitVec 4) (aux attention : Bool),
     (kindByte code aux attention).toNat = code.toNat + 64 * aux.toNat + 128 * attention.toNat ∧
     kindCode (kindByte code aux attention) = code) ∧
   kindCode 0x31 = UpKind.response.code ∧ kindCode 0x71 = UpKind.response.code ∧
   crc [0x31, 0x32, 0x33, 0x34, 0x35, 0x36, 0x37, 0x38, 0x39] = 0x29B1 ∧
   (∀ (f : UpFrame) (attention : Bool),
     let code : Byte := match f.kind with
       | .response => 1 | .publish => 3 | .returned => 5 | .substitute => 6 | .mrsp => 8
     let kind : Byte := code + (if f.aux = true then 0x40 else 0) + (if attention = true then 0x80 else 0)
     let fields := [kind, f.src, BitVec.ofNat 8 f.payload.length] ++ f.payload
     f.wire attention =
       ⟨true, f.dest⟩ :: (fields ++ halfBytes (crc (f.dest :: fields))).map (fun b => ⟨false, b⟩) ∧
     (f.wire attention).length = f.payload.length + 6) ∧
   ∀ k : DownKind, kindByte k.code false false = match k with
     | .request => 0 | .send => 2 | .grant => 4) ∧
  ((∀ h : Half, halfBytes h = [highByte h, lowByte h] ∧ half (highByte h) (lowByte h) = h ∧
     h.toNat = 256 * (highByte h).toNat + (lowByte h).toNat) ∧
   (∀ w : Word, ∃ a b c d, wordBytes w = [a, b, c, d] ∧ word a b c d = w ∧
     w.toNat = 16777216 * a.toNat + 65536 * b.toNat + 256 * c.toNat + d.toNat) ∧
   (∀ p : Policy, readPolicyRecord p.bytes = some p ∧ p.bytes.length = 14) ∧
   ∀ c : Configuration, readConfiguration c.bytes = some c ∧ c.bytes.length = 12) ∧
  ∀ ga gap j1 j0 th pi ba mo um u1 u0 sm s1 s0 : Byte,
    readPolicyRecord [ga, gap, j1, j0, th, pi, ba, mo, um, u1, u0, sm, s1, s0] = some
      { gateAddress := ga, gapTime := gap, jabberLimit := half j1 j0, strikeThreshold := th, probeInterval := pi,
        broadcastAllowed := decide (ba ≠ 0), mode := if mo = 0 then .enforce else .observe,
        uplinkRate := { mode := if um = 0 then .normal else .fractional, step := half u1 u0 },
        segmentRate := { mode := if sm = 0 then .normal else .fractional, step := half s1 s0 } }

/-! ### The uplink -/

/-- A character on the uplink (R26, R27, R32, R35): a start bit ends the silence; a head character opens a frame, after
a frame open before it has ended as a fragment with UPLINK_DAMAGED; a body character with no frame open is not kept;
one that does not end the open frame is taken by it. -/
def Obligations.UplinkCharacterTaken : Prop :=
  ∀ (s : State) (v : Byte), s.works = true →
    exec (.characterTaken .uplink .startBit) s =
      .next { s with uplink := { frame := s.uplink.frame, silence := 0, midCharacter := true } } ∧
    (s.uplink.frame = none →
      exec (.characterTaken .uplink (.character ⟨true, v⟩)) s =
        .next { s with
          uplink := { frame := some { kept := [v], register := crcByte 0xFFFF v, damage := none }, silence := 0,
                      midCharacter := false } } ∧
      exec (.characterTaken .uplink (.character ⟨false, v⟩)) s =
        .next { s with uplink := { frame := none, silence := 0, midCharacter := false } }) ∧
    ∀ f, s.uplink.frame = some f →
      exec (.characterTaken .uplink (.character ⟨true, v⟩)) s =
        .next ({ s with
          uplink := { frame := some { kept := [v], register := crcByte 0xFFFF v, damage := none }, silence := 0,
                      midCharacter := false } }.posting
          [s.eventNow .uplinkDamaged none none (codeDetail (f.damage.getD .fragment).code)]) ∧
      ∀ f', f.take v = .stillOpen f' →
        exec (.characterTaken .uplink (.character ⟨false, v⟩)) s =
          .next { s with uplink := { frame := some f', silence := 0, midCharacter := false } }

/-- The fate of an uplink frame that ends on its second CHECK character (R34, R39, R40, R41), whichever of the two
commands brings that character: damaged, to the Management Request Slot, a wrong kind, or to the Down Queue, the first
that fits. A request placed in the Slot is granted its reservation in the act where the total is below 8 and no soft
reset is under way (R132, R169). -/
def Obligations.UplinkFrameJudged : Prop :=
  ∀ (s : State) (f : OpenFrame) (len v : Byte),
    s.works = true → s.uplink.frame = some f → f.damage = none → f.kept[3]? = some len →
    f.kept.length = len.toNat + 5 →
    let s' := { s with uplink := { frame := none, silence := 0, midCharacter := false } }
    let dest := f.kept.getD 0 0
    let code := kindCode (f.kept.getD 1 0)
    let payload := (f.kept.drop 4).take len.toNat
    let outer := if dest = 255 then none else some dest
    exec (.characterTaken .uplink (.character ⟨false, v⟩)) s = exec (.uplinkFrameEnd v) s ∧
    exec (.uplinkFrameEnd v) s = .next (
      if half (f.kept.getD (len.toNat + 4) 0) v ≠ f.register then
        s'.posting [s.eventNow .uplinkDamaged none none 3]
      else if dest = s.policy.gateAddress ∧ code = 7 then
        match s.slot with
        | some _ => s'.posting [s.eventNow .mgmtOverrun none none 0]
        | none =>
          { s' with
            slot := some payload
            up := { s.up with
              managementHeld := s.up.managementHeld || (!s.softResetUnderWay && decide (s.up.total < 8)) } }
      else if dest = s.policy.gateAddress ∨ code = 7 ∨ (code = 4 ∧ len ≠ 2) ∨ ¬ (code = 0 ∨ code = 2 ∨ code = 4) then
        s'.posting [s.eventNow .uplinkWrongKind none outer (code.setWidth 16)]
      else if s.downQueue.length < 4 then
        { s' with
          downQueue := s.downQueue ++
            [{ kind := if code = 0 then .request else if code = 2 then .send else .grant, dest := dest,
               payload := payload }] }
      else s'.posting [s.eventNow .downFull none outer 0])

/-- HOLD is asserted in RESET and INIT and while the Down Queue holds 4 frames (R65); ATTN exactly while the Event
Queue is not empty (R147); SDRV in ON_LINE until the last character is sent, and in ABORTING, and not in IDLE or
GAP_WAIT (R53, R56); the uplink transmit line rests at 1 while its transmitter is idle (R42, R155). -/
def Obligations.HoldAndAttn : Prop :=
  ∀ s : State,
    (s.hold = true ↔ s.device = .reset ∨ s.device = .init ∨ 4 ≤ s.downQueue.length) ∧
    (s.attn = true ↔ s.events.records ≠ []) ∧
    (∀ f sent compared, s.transmitter = .onLine f sent compared →
      (s.sdrv = true ↔ sent < f.payload.length + 6)) ∧
    (∀ left held, s.transmitter = .aborting left held → s.sdrv = true) ∧
    (s.transmitter = .idle → s.sdrv = false) ∧
    (∀ f, s.transmitter = .gapWait f → s.sdrv = false) ∧
    (s.uplinkTransmitter = .idle → s.utxd = some true)

/-- A silence of two character times ends an open frame as a fragment, or as BAD_LEN where that was recorded (R35): on
the uplink with UPLINK_DAMAGED (R39), on the segment with a damaged report to the Exchange Engine, and the run ends
(R48). -/
def Obligations.SilenceEndsFrames : Prop :=
  ∀ (s : State) (f : OpenFrame), s.works = true →
    (s.uplink.frame = some f → s.uplink.midCharacter = false → s.uplink.silence = 1 →
      exec (.fragmentSilence .uplink) s =
        .next ({ s with uplink := { frame := none, silence := 2, midCharacter := false } }.posting
          [s.eventNow .uplinkDamaged none none (codeDetail (f.damage.getD .fragment).code)])) ∧
    (s.segment.state = .inFrame f → s.transmitter.holdsLine = false → s.segment.midCharacter = false →
      s.segment.silence = 1 →
      exec (.fragmentSilence .segment) s =
        .next ({ s with
          segment := { state := .lineIdle, silence := 2, activity := 0, midCharacter := false } }.engineFrame
          (.damaged (f.damage.getD .fragment))))

/-! ### Characters on the segment -/

/-- A character on the segment outside ON_LINE (R26, R46, R48, R50, R56): a start bit ends the silence; MUTED and
ABORTING take line activity alone; with no frame open a body character is not kept and begins a run; one that does not
end the open frame is taken by it; the second CHECK character ends it, and it is handed to the Exchange Engine (R34,
R37), whichever of the two commands brings it. Where the silence of two is owed the character comes first, and the run
makes the step of that character time (R35, R48; `State.resumed`, log 3, a choice of the model). That the state a stop
bit finds decides, wherever the start bit was heard, is log 25, a choice of the model. -/
def Obligations.SegmentCharacterTaken : Prop :=
  (∀ (s : State) (v : Byte), s.works = true →
     let heard := { s with segment := { s.segment with silence := 0, midCharacter := false } }
     let run (st : ReceiverState) : State := { s.resumed with
       segment := { state := st, silence := 0,
                    activity := if s.resumed.segment.activity = 0 then 1 else s.resumed.segment.activity,
                    midCharacter := false } }
     exec (.characterTaken .segment .startBit) s =
       .next { s.resumed with segment := { s.resumed.segment with silence := 0, midCharacter := true } } ∧
     (∀ c left held, s.transmitter = .aborting left held →
       exec (.characterTaken .segment (.character c)) s = .next heard) ∧
     (s.transmitter.holdsLine = false →
       (∀ c, s.segment.state = .muted → exec (.characterTaken .segment (.character c)) s = .next heard) ∧
       (s.segment.state = .lineIdle →
         exec (.characterTaken .segment (.character ⟨false, v⟩)) s = .next (run .lineIdle)) ∧
       ∀ f f', s.segment.state = .inFrame f → f.take v = .stillOpen f' →
         exec (.characterTaken .segment (.character ⟨false, v⟩)) s = .next (run (.inFrame f')))) ∧
  ∀ (s : State) (f : OpenFrame) (v : Byte) (e : Ended), SegmentEnds s f v e →
    exec (.segmentFrameEnd v) s = .next (s.frameOver.engineFrame e) ∧
    exec (.characterTaken .segment (.character ⟨false, v⟩)) s = .next (s.frameOver.engineFrame e)

/-- A head character on the segment (R32, R35, R37, R89): it opens a frame; a frame open before it ends as a fragment
and is handed to the Exchange Engine first; in AWAITING its report moves the exchange to RECEIVING with the
head-arrival time, and the watch counter keeps its value; in any other state the report changes nothing. That a silence
of two which is owed has not come about is log 3, as for every character. That the state its stop bit finds decides,
wherever its start bit was heard, is log 25, a choice of the model. -/
def Obligations.HeadArrivalOpensFrame : Prop :=
  ∀ (s : State) (v : Byte), s.works = true → s.transmitter.holdsLine = false → s.segment.state ≠ .muted →
    let opened (t : State) : State := { t with
      segment := { state := .inFrame { kept := [v], register := crcByte 0xFFFF v, damage := none }, silence := 0,
                   activity := if s.segment.activity = 0 then 1 else s.segment.activity, midCharacter := false } }
    exec (.characterTaken .segment (.character ⟨true, v⟩)) s = exec (.headArrival v) s ∧
    (s.segment.state = .lineIdle →
      ((s.device = .standby ∨ ∀ g, s.engagement = some g → g.state ≠ .awaiting) →
        exec (.headArrival v) s = .next (opened s)) ∧
      ∀ g, s.device ≠ .standby → s.engagement = some g → g.state = .awaiting →
        exec (.headArrival v) s = .next { opened s with
          engagement := some { g with state := .receiving, headArrival := some s.clock } }) ∧
    ∀ f, s.segment.state = .inFrame f →
      let u := s.frameOver.engineFrame (.damaged (f.damage.getD .fragment))
      exec (.headArrival v) s =
        .next (State.engineHead { u with
          segment := { u.segment with
            state := .inFrame { kept := [v], register := crcByte 0xFFFF v, damage := none } } })

/-! ### The answer to a REQUEST -/

/-- The counters saturate (R12, R145), and a turnaround updates last, min and max (R11). -/
def Obligations.CountersAndTurnarounds : Prop :=
  (∀ x : Half, satInc x = if x = 65535 then 65535 else x + 1) ∧
  (∀ x : Byte, satInc x = if x = 255 then 255 else x + 1) ∧
  ∀ (t : Turnarounds) (v : Half), t.update v =
    { last := some v
      min := some (t.min.elim v (fun m => if v < m then v else m))
      max := some (t.max.elim v (fun m => if m < v then v else m)) }

/-- A response accepted (R92, R95, R97, R99, R103): counted, its turnaround given to the table, strikes at 0, a probe
that finds the entry BARRED releases it, and the frame goes upstream as the RESPONSE of the record's outer address. A
silence of two that is owed as the frame's last character comes is log 3 (`State.frameOver`), the model's choice. -/
def Obligations.ResponseAccepted : Prop :=
  ∀ (s : State) (f : OpenFrame) (v : Byte) (m : Frame) (g : Engagement) (j : Fin 64) (e : Entry),
    SegmentEnds s f v (.intact m) → Engaged s g j e → g.state = .receiving →
    m.src = g.inner → m.dest = 0xFF → m.code = 1 → m.payload.length ≤ e.config.maxResponse.toNat →
    let released := g.probe = true ∧ e.status = .barred
    let e' : Entry := { e with
      statistics := { e.statistics with exchanges := satInc e.statistics.exchanges }
      turnarounds := e.turnarounds.update (BitVec.ofNat 16 s.watch)
      strikes := 0
      status := if released then .enabled else e.status
      outcomes := e.outcomes ||| 0x01
      lastOutcome := some .answered }
    exec (.segmentFrameEnd v) s = .next (s.frameOver.closing j e'
      (if released then [s.eventNow .released (some j) (some g.outer) 1] else [])
      { kind := .response, dest := 0xFF, src := g.outer, aux := false, payload := m.payload, mark := none }
      (s.closedNow j g.inner))

/-- A response rejected (R92, R93, R94, R96): the first test that fails gives the reason; in ENFORCE a SUBSTITUTE with
it answers, in OBSERVE the frame goes upstream as the RESPONSE and the observed flag is set. A silence of two that is
owed as the frame's last character comes is log 3 (`State.frameOver`), the model's choice. -/
def Obligations.ResponseRejected : Prop :=
  ∀ (s : State) (f : OpenFrame) (v : Byte) (m : Frame) (g : Engagement) (j : Fin 64) (e : Entry) (reason : Byte)
    (detail : Half),
    SegmentEnds s f v (.intact m) → Engaged s g j e → g.state = .receiving →
    ((m.src ≠ g.inner ∨ m.dest ≠ 0xFF) ∧ reason = 13 ∧ detail = half m.src m.dest ∨
      (m.src = g.inner ∧ m.dest = 0xFF) ∧ m.code ≠ 1 ∧ reason = 14 ∧ detail = m.code.setWidth 16 ∨
      (m.src = g.inner ∧ m.dest = 0xFF) ∧ m.code = 1 ∧ e.config.maxResponse.toNat < m.payload.length ∧ reason = 15 ∧
        detail = BitVec.ofNat 16 m.payload.length) →
    let observed : Byte := if s.policy.mode = .observe then 1 else 0
    exec (.segmentFrameEnd v) s = .next (s.frameOver.closing j
      (e.failed s.policy (fun t => { t with rejected := satInc t.rejected }) .rejected)
      (s.eventNow .rejected (some j) (some g.outer) (half observed reason) :: e.strikeRecords s j g.outer)
      (if s.policy.mode = .observe then
        { kind := .response, dest := 0xFF, src := g.outer, aux := false, payload := m.payload, mark := none }
       else substituteOf g.outer reason detail)
      (s.closedNow j g.inner))

/-- A damaged frame in RECEIVING closes the exchange as DAMAGED (R91), whichever way it ends: on its CHECK, by silence,
or by a head character, which then opens the next frame. A silence of two that is owed as the frame's last character
comes is log 3 (`State.frameOver`), the model's choice. -/
def Obligations.ResponseDamaged : Prop :=
  ∀ (s : State) (g : Engagement) (j : Fin 64) (e : Entry), Engaged s g j e → g.state = .receiving →
    let closed (s' : State) (d : Damage) : State := s'.closing j
      (e.failed s.policy (fun t => { t with damaged := satInc t.damaged }) .damaged)
      (s.eventNow .damaged (some j) (some g.outer) (codeDetail d.code) :: e.strikeRecords s j g.outer)
      (substituteOf g.outer 12 (codeDetail d.code))
      (s.closedNow j g.inner)
    (∀ c d s', EndsDamaged s c d s' → exec c s = .next (closed s' d)) ∧
    ∀ f v, s.works = true → s.transmitter.holdsLine = false → s.segment.state = .inFrame f →
      let t := closed s.frameOver (f.damage.getD .fragment)
      exec (.headArrival v) s = .next { t with
        segment := { t.segment with state := .inFrame { kept := [v], register := crcByte 0xFFFF v, damage := none } } }

/-- Frames that end while the Engagement is IDLE, in RUN and DRAIN (R104, R105): a RESPONSE from the recorded inner
address is LATE, and counted where the entry still has that address; any other intact frame is STRAY; a damaged one
leaves no trace. In SENDING and SETTLING an intact frame is STRAY and a damaged one leaves no trace (R87, R102, R128);
in STANDBY every frame is discarded without a trace (R60). A silence of two that is owed as the frame's last character
comes is log 3 (`State.frameOver`), the model's choice. -/
def Obligations.FramesOfNoEngagement : Prop :=
  (∀ (s : State), s.device = .run ∨ s.device = .drain → s.engagement = none →
     (∀ c d s', EndsDamaged s c d s' → exec c s = .next s') ∧
     ∀ f v m, SegmentEnds s f v (.intact m) →
       ((∀ c, s.lastClosed = some c → ¬ (m.code = 1 ∧ m.src = c.inner)) →
         exec (.segmentFrameEnd v) s = .next (s.frameOver.posting [s.eventNow .stray none none (codeDetail m.src)])) ∧
       ∀ c, s.lastClosed = some c → m.code = 1 → m.src = c.inner →
         let late := BitVec.ofNat 16 (min (s.clock - c.time).toNat 65535)
         (∀ e, s.table.get c.index = some e → e.config.inner = c.inner →
           exec (.segmentFrameEnd v) s = .next ({ s.frameOver with
             table := s.table.set c.index.val (some { e with
               statistics := { e.statistics with late := satInc e.statistics.late }
               outcomes := e.outcomes ||| 0x10
               lastOutcome := some .late }) }.posting
             [s.eventNow .late (some c.index) (some e.config.outer) late])) ∧
         ((∀ e, s.table.get c.index = some e → e.config.inner ≠ c.inner) →
           exec (.segmentFrameEnd v) s = .next (s.frameOver.posting [s.eventNow .late (some c.index) none late]))) ∧
  ∀ (s : State),
    (s.device = .standby →
      (∀ c d s', EndsDamaged s c d s' → exec c s = .next s') ∧
      ∀ f v m, SegmentEnds s f v (.intact m) → exec (.segmentFrameEnd v) s = .next s.frameOver) ∧
    ∀ g, (s.device = .run ∨ s.device = .drain) → s.engagement = some g →
      (g.state = .sending ∨ ∃ b, g.state = .settling b) →
      (∀ c d s', EndsDamaged s c d s' → exec c s = .next s') ∧
      ∀ f v m, SegmentEnds s f v (.intact m) →
        exec (.segmentFrameEnd v) s = .next (s.frameOver.posting [s.eventNow .stray none none (codeDetail m.src)])

/-! ### The holder of the line -/

/-- The holder's RETURN (R117, R118): ANSWERED and EXCHANGES recorded, strikes at 0, a probe that finds the entry
BARRED releases it, the gate's RETURN carries the token counter with the aux flag 0, and the Engagement closes to IDLE
with the Last-Closed record as it was. A silence of two that is owed as the frame's last character comes is log 3
(`State.frameOver`), the model's choice. -/
def Obligations.HolderReturn : Prop :=
  ∀ (s : State) (f : OpenFrame) (v : Byte) (m : Frame) (g : Engagement) (j : Fin 64) (e : Entry),
    SegmentEnds s f v (.intact m) → Engaged s g j e → g.state = .holding → m.src = g.inner → m.code = 5 →
    let released := g.probe = true ∧ e.status = .barred
    let e' : Entry := { e with
      statistics := { e.statistics with exchanges := satInc e.statistics.exchanges }
      strikes := 0
      status := if released then .enabled else e.status
      outcomes := e.outcomes ||| 0x01
      lastOutcome := some .answered }
    exec (.segmentFrameEnd v) s = .next (s.frameOver.closing j e'
      (if released then [s.eventNow .released (some j) (some g.outer) 1] else [])
      (returnOf g.outer false s.token) s.lastClosed)

/-- A PUBLISH from the holder (R113, R114, R115, R137): counted as seen; thinned while the divider count is above 0;
otherwise translated by its DEST and admitted where the total with it is 6 or less, or dropped with its event. The
divider count advances in every case. A silence of two that is owed as the frame's last character comes is log 3
(`State.frameOver`), the model's choice. -/
def Obligations.HolderPublish : Prop :=
  ∀ (s : State) (f : OpenFrame) (v : Byte) (m : Frame) (g : Engagement) (j : Fin 64) (e : Entry),
    TableSound s → SegmentEnds s f v (.intact m) → Engaged s g j e → g.state = .holding → m.src = g.inner →
    m.code = 3 → e.config.token = true →
    let advanced : Entry := { e with
      dividerCount := if e.dividerCount + 1 = e.config.publishDivider.toNat then 0 else e.dividerCount + 1 }
    let seen := { s.frameOver with engagement := some { g with seen := g.seen.map satInc } }
    let with' (e' : Entry) : State := { seen with table := s.table.set j.val (some e') }
    let counted : Entry :=
      { advanced with statistics := { e.statistics with published := satInc e.statistics.published } }
    let admitted (dest : Byte) : State :=
      let frame : UpFrame :=
        { kind := .publish, dest := dest, src := g.outer, aux := false, payload := m.payload, mark := none }
      { with' counted with
        up := { s.up with frames := s.up.frames ++ [frame] }
        uplinkTransmitter := uplinkAfter s.uplinkTransmitter (s.up.frames ++ [frame]) s.events }
    let dropped := (with' advanced).posting [s.eventNow .publishDropped (some j) (some g.outer) 0]
    (0 < e.dividerCount →
      exec (.segmentFrameEnd v) s = .next (with' { advanced with
        statistics := { e.statistics with thinned := satInc e.statistics.thinned } })) ∧
    (e.dividerCount = 0 →
      (m.dest = 0xFF →
        exec (.segmentFrameEnd v) s = .next (if s.up.total + 1 ≤ 6 then admitted 0xFF else dropped)) ∧
      (∀ i d, s.table.get i = some d → d.config.inner = m.dest →
        exec (.segmentFrameEnd v) s = .next (if s.up.total + 1 ≤ 6 then admitted d.config.outer else dropped)) ∧
      (m.dest ≠ 0xFF → (∀ i d, s.table.get i = some d → d.config.inner ≠ m.dest) →
        exec (.segmentFrameEnd v) s =
          .next ((with' advanced).posting [s.eventNow .publishBadDest (some j) (some g.outer) (codeDetail m.dest)])))

/-- Frames in HOLDING that neither publish nor return (R111, R119, R120): another station's is STRAY; a wrong kind from
the holder, and a damaged frame, are counted with a strike; the phase goes on. A silence of two that is owed as the
frame's last character comes is log 3 (`State.frameOver`), the model's choice. -/
def Obligations.HolderFaults : Prop :=
  ∀ (s : State) (g : Engagement) (j : Fin 64) (e : Entry), Engaged s g j e → g.state = .holding →
    (∀ f v m, SegmentEnds s f v (.intact m) → m.src ≠ g.inner →
      exec (.segmentFrameEnd v) s = .next (s.frameOver.posting [s.eventNow .stray none none (codeDetail m.src)])) ∧
    (∀ f v m, SegmentEnds s f v (.intact m) → m.src = g.inner → m.code ≠ 3 → m.code ≠ 5 →
      exec (.segmentFrameEnd v) s = .next ({ s.frameOver with
        table := s.table.set j.val
          (some (e.failed s.policy (fun t => { t with rejected := satInc t.rejected }) .rejected)) }.posting
        (s.eventNow .rejected (some j) (some g.outer) 14 :: e.strikeRecords s j g.outer))) ∧
    ∀ c d s', EndsDamaged s c d s' →
      exec c s = .next ({ s' with
        table := s.table.set j.val
          (some (e.failed s.policy (fun t => { t with damaged := satInc t.damaged }) .damaged)) }.posting
        (s.eventNow .damaged (some j) (some g.outer) (codeDetail d.code) :: e.strikeRecords s j g.outer))

/-- The two lookups (R2, R3) return the one valid entry with the address; the keys 254 and 255 return none, pending
updates are not consulted and status plays no part. FIND_ENTRY answers with its index, or NOT_FOUND (R180). -/
def Obligations.LookupsAndFindEntry : Prop :=
  ∀ s : State, TableSound s →
    (∀ a i, findOuter s.table a = some i ↔ ∃ e, s.table.get i = some e ∧ e.config.outer = a) ∧
    (∀ a i, findInner s.table a = some i ↔ ∃ e, s.table.get i = some e ∧ e.config.inner = a) ∧
    ∀ a, RequestReady s 10 [a] →
      (∀ i e, s.table.get i = some e → e.config.outer = a →
        exec .findEntry s = .next (s.replying 10 0 0 [BitVec.ofNat 8 i.val] none)) ∧
      ((∀ i e, s.table.get i = some e → e.config.outer ≠ a) →
        exec .findEntry s = .next (s.replying 10 8 (codeDetail a) [] none))

/-! ### Jabber, the quiet line and the transmitter -/

/-- The run passes the jabber limit (R49): the receiver is MUTED, a frame open in it is truncated, JABBER is posted,
and the report closes an exchange as JABBER (R100), reclaims the line from a holder (R125), and changes nothing in the
other states (R60, R87, R102, R105). JABBER stands first among the records (log 13). A silence of two that is owed as
the frame is cut off has come about (`State.cutOff`, log 3). Both are the model's choice. -/
def Obligations.JabberMutes : Prop :=
  ∀ s : State, s.works = true → s.transmitter.holdsLine = false → s.segment.state ≠ .muted →
    s.policy.jabberLimit.toNat ≤ s.segment.activity →
    let muted := s.cutOff .muted
    (s.engagement = none → exec .jabber s = .next (muted.posting [s.eventNow .jabber none none 0])) ∧
    ∀ g, (s.device = .run ∨ s.device = .drain) → s.engagement = some g →
      (g.state = .sending ∨ (∃ b, g.state = .settling b) →
        exec .jabber s =
          .next (muted.posting [s.eventNow .jabber g.index (g.index.map fun _ => g.outer) 0])) ∧
      ∀ j e, g.index = some j → s.table.get j = some e →
        let jabber := s.eventNow .jabber (some j) (some g.outer) 0
        let closed (detail : Half) : State := State.settlingFrom
          ({ muted with
            table := s.table.set j.val
              (some (e.failed s.policy (fun t => { t with damaged := satInc t.damaged }) .jabber)) }.answering
            (jabber :: e.strikeRecords s j g.outer) (substituteOf g.outer 16 detail)) g true
        (g.state = .awaiting → exec .jabber s = .next (closed 0)) ∧
        (∀ f, g.state = .receiving → s.segment.state = .inFrame f →
          exec .jabber s = .next (closed (codeDetail (f.damage.getD .truncated).code))) ∧
        (g.state = .holding →
          exec .jabber s = .next (State.settlingFrom
            ({ muted with
              table := s.table.set j.val
                (some (e.failed s.policy (fun t => { t with reclaims := satInc t.reclaims }) .jabber)) }.answering
              (jabber :: e.strikeRecords s j g.outer) (returnOf g.outer true s.token)) g false))

/-- The line becomes quiet (R47, R50, R52, R102): a MUTED receiver returns to LINE_IDLE, SETTLING ends, and a
transmitter in GAP_WAIT begins its frame in RUN or DRAIN. -/
def Obligations.LineQuietActs : Prop :=
  ∀ s : State, s.works = true → s.segment.midCharacter = false → s.sdrv = false →
    s.segment.silence + 1 = s.policy.gapTime.toNat →
    let quiet := { s with
      segment := { s.segment with
        silence := s.policy.gapTime.toNat
        state := if s.segment.state = .muted then .lineIdle else s.segment.state } }
    ((∀ f, s.transmitter ≠ .gapWait f) →
      ((s.device = .standby ∨ ∀ g, s.engagement = some g → ∀ b, g.state ≠ .settling b) →
        exec .lineQuiet s = .next quiet) ∧
      ∀ g b, (s.device = .run ∨ s.device = .drain) → s.engagement = some g → g.state = .settling b →
        exec .lineQuiet s = .next (quiet.settled g b)) ∧
    ∀ f, s.transmitter = .gapWait f → (s.device = .run ∨ s.device = .drain) →
      (∀ g, s.engagement = some g → ∀ b, g.state ≠ .settling b) →
      exec .lineQuiet s = .next { quiet with
        transmitter := .onLine f 0 0
        segment := { quiet.segment with silence := 0, activity := 0 } }

/-- The echo of the second CHECK character compares equal (R54, R84, R110): the transmitter is IDLE, and a REQUEST
enters AWAITING with the watch counter at 0, a SEND closes with its reservation released, a GRANT enters HOLDING with
the token counter loaded. The echo of a character before it is taken off the comparator. -/
def Obligations.EchoesComplete : Prop :=
  ∀ (s : State) (f : LineFrame) (sent compared : Nat) (c : LineChar), s.works = true →
    s.transmitter = .onLine f sent compared → compared ≤ sent → f.chars[compared]? = some c →
    (compared + 1 < f.length →
      exec (.characterTaken .segment (.character c)) s = .next { s with
        transmitter := .onLine f sent (compared + 1)
        segment := { s.segment with silence := 0, midCharacter := false } }) ∧
    (compared + 1 = f.length →
      exec (.characterTaken .segment (.character c)) s = exec .transmissionComplete s ∧
      let idle := { s with
        transmitter := .idle
        segment := { s.segment with silence := 0, activity := 0, midCharacter := false } }
      ∀ g, s.engagement = some g → g.state = .sending →
        (g.kind = .request →
          exec .transmissionComplete s =
            .next { idle with engagement := some { g with state := .awaiting }, watch := 0 }) ∧
        (g.kind = .send → exec .transmissionComplete s = .next (idle.settled g false)) ∧
        ∀ b, g.kind = .grant → g.budget = some b →
          exec .transmissionComplete s =
            .next { idle with engagement := some { g with state := .holding }, token := b.toNat })

/-- An echo fault (R54, R55, R85): a wrong echo, or one missing when the character after it is finished, begins the
abort procedure; ECHO_FAULT is posted with the position; a REQUEST or GRANT is answered LINE_FAULT; the Engagement
moves to SETTLING. In the clause of the missing echo the character after the finished one counts as begun (log 7), and
where the last CHECK's echo is missing nothing is left to send (log 23); both are the model's choice. -/
def Obligations.EchoFaultsAbort : Prop :=
  ∀ (s : State) (f : LineFrame) (sent compared : Nat) (g : Engagement), s.works = true →
    s.transmitter = .onLine f sent compared → s.engagement = some g → g.state = .sending →
    let position := BitVec.ofNat 16 compared
    let fault (s' : State) : State := State.settlingFrom
      ({ s' with transmitter := s.transmitter.abort }.givingUp g
        [s.eventNow .echoFault g.index (g.index.map fun _ => g.outer) position] 9 position) g false
    (∀ c x, compared ≤ sent → f.chars[compared]? = some x → c ≠ x →
      let heard := { s with segment := { s.segment with silence := 0, midCharacter := false } }
      exec (.characterTaken .segment (.character c)) s = .next (fault heard) ∧
      exec (.echoFault (some c)) s = .next (fault heard)) ∧
    (compared + 2 ≤ sent → exec (.echoFault none) s = .next (fault s))

/-- The characters of a frame on the segment (R53) and what an abort order leaves of it (R56, R57): the character in
progress, then the complement of each CHECK character not yet begun; a frame in GAP_WAIT is discarded, and an abort
under way goes on. That a frame held behind it is given up with it is log 8; that a transmitter which has sent its last
character and awaits the echo is IDLE at once is log 23. The procedure ends with its last character (R52): SDRV is
released, silence runs from there, and a frame handed over meanwhile enters GAP_WAIT. A character whose start bit was
heard in ABORTING goes on (R27, R46). -/
def Obligations.AbortProcedure : Prop :=
  (∀ f : LineFrame, f.payload.length ≤ 240 →
     f.chars = ⟨true, f.dest⟩ ::
       (([kindByte f.kind.code false false, f.src, BitVec.ofNat 8 f.payload.length] ++ f.payload ++
         halfBytes (crc f.body)).map fun b => ⟨false, b⟩) ∧
     f.chars.length = f.payload.length + 6 ∧
     SegmentTransmitter.idle.abort = .idle ∧ (SegmentTransmitter.gapWait f).abort = .idle ∧
     (∀ left held, (SegmentTransmitter.aborting left held).abort = .aborting left none) ∧
     ∀ (sent compared : Nat) (c : LineChar), f.chars[sent]? = some c →
       let check := crc (f.body.take (sent + 1))
       (sent ≤ f.payload.length + 3 → (SegmentTransmitter.onLine f sent compared).abort =
         .aborting [c, ⟨false, ~~~ highByte check⟩, ⟨false, ~~~ lowByte check⟩] none) ∧
       (sent = f.payload.length + 4 → (SegmentTransmitter.onLine f sent compared).abort =
         .aborting [c, ⟨false, ~~~ lowByte (crc f.body)⟩] none) ∧
       (sent = f.payload.length + 5 → (SegmentTransmitter.onLine f sent compared).abort = .aborting [c] none)) ∧
  (∀ (f : LineFrame) (sent compared : Nat), f.payload.length + 6 ≤ sent →
     (SegmentTransmitter.onLine f sent compared).abort = .idle) ∧
  ∀ (s : State) (left : List LineChar) (held : Option LineFrame), left.length ≤ 1 → 3 ≤ s.policy.gapTime.toNat →
    s.transmitter = .aborting left held →
    let t := { s with
      transmitter := match held with
        | none => .idle
        | some f => .gapWait f
      segment := { s.segment with silence := 0, activity := 0 } }
    s.sdrv = true ∧ t.sdrv = false ∧ exec .abortEnd s = .next t

/-! ### Time -/

/-- One character time with nothing owed (R27, R35, R46, R48, R53, R54, R56, R83, R109, R150): the Line Clock steps,
one character of a frame on the line is finished, and each counter steps where its rule has it step. A counter that
would step to its threshold stands, and its step is owed; a step owed when the next character time passes is taken
first, as its command takes it (log 3). Of the model's choice are also: silence stands at 0 while SDRV is asserted (log
5), a run is not stepped in the character time that brings silence to two (log 6), a character in progress as the
transmitter returns to IDLE begins a run (log 25), how far the uplink transmitter moves (log 10), and the uplink
silence stops at 63 (log 21). -/
def Obligations.CharacterTimeSteps : Prop :=
  (∀ s : State, s.works = true → s.owed = [] → ∃ t, exec .characterTime s = .next t ∧
     t = { s with
       clock := s.clock + 1, uplink := t.uplink, segment := t.segment, transmitter := t.transmitter, watch := t.watch,
       token := t.token, uplinkTransmitter := t.uplinkTransmitter, freeCount := s.freeCount + 1, owed := t.owed } ∧
     t.segment.state = s.segment.state ∧ t.segment.midCharacter = s.segment.midCharacter ∧
     t.uplink.frame = s.uplink.frame ∧ t.uplink.midCharacter = s.uplink.midCharacter ∧
     (∀ g j e, s.engagement = some g → g.index = some j → s.table.get j = some e → g.state = .awaiting →
       (s.watch + 1 < e.config.deadline.toNat → t.watch = s.watch + 1 ∧ .deadline ∉ t.owed) ∧
       (s.watch + 1 = e.config.deadline.toNat → t.watch = s.watch ∧ .deadline ∈ t.owed)) ∧
     ((∀ g, s.engagement = some g → g.state ≠ .awaiting) → t.watch = s.watch ∧ .deadline ∉ t.owed) ∧
     (∀ g, s.engagement = some g → g.state = .holding →
       (1 < s.token → t.token = s.token - 1 ∧ .token ∉ t.owed) ∧ (s.token = 1 → t.token = 1 ∧ .token ∈ t.owed)) ∧
     ((∀ g, s.engagement = some g → g.state ≠ .holding) → t.token = s.token ∧ .token ∉ t.owed) ∧
     (s.uplink.midCharacter = true → t.uplink.silence = 0 ∧ .uplinkFragment ∉ t.owed) ∧
     (s.uplink.midCharacter = false →
       (∀ f, s.uplink.frame = some f → s.uplink.silence = 1 →
         t.uplink.silence = 1 ∧ .uplinkFragment ∈ t.owed) ∧
       ((s.uplink.silence ≠ 1 ∨ s.uplink.frame = none) →
         (s.uplink.silence < 63 → t.uplink.silence = s.uplink.silence + 1) ∧
         (63 ≤ s.uplink.silence → t.uplink.silence = 63) ∧ .uplinkFragment ∉ t.owed)) ∧
     (s.uplinkTransmitter = .idle → t.uplinkTransmitter = .idle) ∧
     (∀ wire n, s.uplinkTransmitter = .sending wire n → ∃ m, t.uplinkTransmitter = .sending wire m ∧ n ≤ m ∧
       (n < wire.length → m < wire.length)) ∧
     (∀ f sent compared, s.transmitter = .onLine f sent compared → sent ≤ f.payload.length + 7 →
       let n := if sent < f.payload.length + 7 then sent + 1 else sent
       t.transmitter = .onLine f n compared ∧ (.missingEcho ∈ t.owed ↔ compared + 2 ≤ n)) ∧
     (∀ c d left held, s.transmitter = .aborting (c :: d :: left) held →
       t.transmitter = .aborting (d :: left) held ∧ .abortEnd ∉ t.owed) ∧
     (∀ left held, s.transmitter = .aborting left held → left.length ≤ 1 →
       t.transmitter = .aborting left held ∧ .abortEnd ∈ t.owed) ∧
     (s.transmitter.holdsLine = false → t.transmitter = s.transmitter ∧ .missingEcho ∉ t.owed ∧ .abortEnd ∉ t.owed) ∧
     (s.segment.midCharacter = true ∨ s.sdrv = true →
       t.segment.silence = 0 ∧ .quiet ∉ t.owed ∧ .segmentFragment ∉ t.owed) ∧
     (s.segment.midCharacter = false → s.sdrv = false →
       (∀ f, s.segment.state = .inFrame f → s.segment.silence = 1 →
         t.segment.silence = 1 ∧ .segmentFragment ∈ t.owed ∧ .quiet ∉ t.owed) ∧
       ((s.segment.silence ≠ 1 ∨ ∀ f, s.segment.state ≠ .inFrame f) →
         (s.segment.silence + 1 = s.policy.gapTime.toNat → t.segment.silence = s.segment.silence ∧ .quiet ∈ t.owed) ∧
         (s.segment.silence + 1 ≠ s.policy.gapTime.toNat → s.segment.silence < 63 →
           t.segment.silence = s.segment.silence + 1 ∧ .quiet ∉ t.owed) ∧
         (s.segment.silence + 1 ≠ s.policy.gapTime.toNat → s.segment.silence = 63 →
           t.segment.silence = 63 ∧ .quiet ∉ t.owed) ∧ .segmentFragment ∉ t.owed)) ∧
     (s.transmitter.holdsLine = false → s.segment.state ≠ .muted →
       (s.segment.midCharacter = true ∨ s.segment.silence = 0 ∧ s.segment.activity ≠ 0 →
         (s.segment.activity < s.policy.jabberLimit.toNat →
           t.segment.activity = s.segment.activity + 1 ∧ .jabber ∉ t.owed) ∧
         (s.policy.jabberLimit.toNat ≤ s.segment.activity →
           t.segment.activity = s.segment.activity ∧ .jabber ∈ t.owed)) ∧
       (s.segment.midCharacter = false →
         (s.segment.silence = 0 → s.segment.activity = 0 → t.segment.activity = 0 ∧ .jabber ∉ t.owed) ∧
         (∀ f, s.segment.state = .inFrame f → s.segment.silence = 1 →
           t.segment.activity = s.segment.activity ∧ .jabber ∉ t.owed) ∧
         (2 ≤ s.segment.silence ∨ s.segment.silence = 1 ∧ (∀ f, s.segment.state ≠ .inFrame f) →
           t.segment.activity = 0 ∧ .jabber ∉ t.owed))) ∧
     (s.transmitter.holdsLine = true ∨ s.segment.state = .muted → t.segment.activity = 0 ∧ .jabber ∉ t.owed)) ∧
  ∀ (s : State) (x : Threshold) (c : Instr),
    (x, c) ∈ [(Threshold.deadline, Instr.deadlineExpiry), (.token, .tokenExpiry), (.jabber, .jabber),
      (.quiet, .lineQuiet), (.segmentFragment, .fragmentSilence .segment), (.uplinkFragment, .fragmentSilence .uplink),
      (.missingEcho, .echoFault none), (.abortEnd, .abortEnd)] →
    s.owed = [x] →
    ∃ t, exec c { s with owed := [] } = .next t ∧ exec .characterTime s = exec .characterTime t

/-- The deadline expires (R88): the exchange closes to IDLE as SILENT. -/
def Obligations.DeadlineCloses : Prop :=
  ∀ (s : State) (g : Engagement) (j : Fin 64) (e : Entry), Engaged s g j e → g.state = .awaiting →
    s.watch + 1 = e.config.deadline.toNat →
    exec .deadlineExpiry s = .next ({ s with watch := e.config.deadline.toNat }.closing j
      (e.failed s.policy (fun t => { t with silent := satInc t.silent }) .silent)
      (s.eventNow .silent (some j) (some g.outer) e.config.deadline :: e.strikeRecords s j g.outer)
      (substituteOf g.outer 11 e.config.deadline)
      (s.closedNow j g.inner))

/-- The token counter steps from 1 to 0 (R122, R123): the open frame is truncated and leaves no trace, the phase is
charged RECLAIMED, the reclaimed RETURN carries 0, and the Engagement moves to SETTLING. A silence of two that is owed
as the frame is truncated has come about (`State.truncated`, log 3, the model's choice). -/
def Obligations.TokenReclaims : Prop :=
  ∀ (s : State) (g : Engagement) (j : Fin 64) (e : Entry) (seen : Half), Engaged s g j e → g.state = .holding →
    g.seen = some seen → s.token = 1 →
    exec .tokenExpiry s = .next (State.settlingFrom
      ({ s.truncated with
        token := 0
        table := s.table.set j.val
          (some (e.failed s.policy (fun t => { t with reclaims := satInc t.reclaims }) .reclaimed)) }.answering
        (s.eventNow .reclaimed (some j) (some g.outer) seen :: e.strikeRecords s j g.outer)
        (returnOf g.outer true 0)) g false)

/-! ### The end of an upstream frame -/

/-- An upstream frame without the SOFT_RESET mark is complete (R44, R63, R133, R134, R139): it leaves the queue, a rate
mark switches the uplink generator, the freed slot is granted to an engine that waits, by the preference where both
wait, and the next frame begins. That a request waits exactly while `ExchangeWaits` or `ManagementWaits` holds is log
14, and that the take of a granted request stands inside this command, before the next frame begins, is log 15; both
are the model's choice. -/
def Obligations.UplinkFrameCompletes : Prop :=
  ∀ (s : State) (f : UpFrame) (rest : List UpFrame) (wire : List LineChar) (n : Nat), Accounts s → s.works = true →
    s.up.frames = f :: rest → s.uplinkTransmitter = .sending wire n → f.mark ≠ some .softReset →
    let freed := { s with
      up := { s.up with frames := rest }
      uplinkTransmitter := .idle
      uplinkRate := match f.mark with
        | some (.uplinkRate r) => r
        | _ => s.uplinkRate }
    let begun (t : State) : State :=
      { t with uplinkTransmitter := uplinkAfter t.uplinkTransmitter t.up.frames t.events }
    (¬ ExchangeWaits s → ¬ ManagementWaits s → exec .uplinkTransmissionComplete s = .next (begun freed)) ∧
    (¬ ExchangeWaits s → ManagementWaits s →
      exec .uplinkTransmissionComplete s =
        .next (begun { freed with up := { freed.up with managementHeld := true } })) ∧
    (ExchangeWaits s → ¬ ManagementWaits s →
      ∃ t, exec .take freed = .next t ∧ exec .uplinkTransmissionComplete s = .next (begun t)) ∧
    (ExchangeWaits s → ManagementWaits s →
      (s.up.preference = .management →
        exec .uplinkTransmissionComplete s =
          .next (begun { freed with up := { freed.up with managementHeld := true, preference := .exchange } })) ∧
      (s.up.preference = .exchange →
        ∃ t, exec .take { freed with up := { freed.up with preference := .management } } = .next t ∧
          exec .uplinkTransmissionComplete s = .next (begun t)))

/-! ### The take and admission -/

/-- A take in STANDBY (R81): a REQUEST or GRANT is answered STANDBY, a SEND is dropped and its reservation released; no
lookup is made and no event is posted. -/
def Obligations.TakeInStandby : Prop :=
  ∀ (s : State) (f : DownFrame) (rest : List DownFrame), MayTake s f rest → s.device = .standby →
    exec .take s = .next ({ s with downQueue := rest }.refusing f [] 8 0)

/-- Check 1 (R69): a broadcast SEND is forwarded where the policy allows it, with an engagement that names no entry;
otherwise a frame with DEST 255 is refused with BAD_DESTINATION, in both modes. -/
def Obligations.TakeBroadcast : Prop :=
  ∀ (s : State) (f : DownFrame) (rest : List DownFrame), MayTake s f rest → s.device = .run → f.dest = 0xFF →
    (f.kind = .send → s.policy.broadcastAllowed = true →
      exec .take s = .next (State.handing
        { s with
          downQueue := rest
          up := { s.up with exchangeHeld := true }
          lastClosed := none
          engagement := some
            { state := .sending, kind := .send, index := none, outer := 0xFF, inner := 0xFF, probe := false,
              timeOpened := s.clock, headArrival := none, budget := none, seen := none } }
        { dest := 0xFF, kind := .send, src := 0xFF, payload := f.payload })) ∧
    (f.kind = .send ∧ s.policy.broadcastAllowed = false ∨ f.kind = .request →
      exec .take s = .next ({ s with downQueue := rest }.refusing f [s.eventNow .refused none none 1] 1 0)) ∧
    (f.kind = .grant →
      exec .take s = .next ({ s with downQueue := rest }.refusing f [s.eventNow .refused none none 1] 1 4))

/-- Check 2 in both modes (R70), and checks 3, 5 and 6 of an entry that is not BARRED in ENFORCE (R71, R73, R74, R76,
R77): the first check that fails refuses the frame with its reason. -/
def Obligations.TakeRefused : Prop :=
  (∀ (s : State) (f : DownFrame) (rest : List DownFrame), MayTake s f rest → s.device = .run → f.dest ≠ 0xFF →
    (∀ i e, s.table.get i = some e → e.config.outer ≠ f.dest) →
    exec .take s = .next ({ s with downQueue := rest }.refusing f [s.eventNow .refused none (some f.dest) 2] 2 0)) ∧
  ∀ (s : State) (f : DownFrame) (rest : List DownFrame) (i : Fin 64) (e : Entry) (reason : Byte) (detail : Half),
    TakesFor s f rest i e → s.policy.mode = .enforce →
    (e.status = .disabled ∧ reason = 3 ∧ detail = 0 ∨ e.status = .enabled ∧ FailsChecks f e reason detail) →
    exec .take s = .next ({ s with downQueue := rest, table := s.table.set i.val (some e.refused) }.refusing f
      [s.eventNow .refused (some i) (some e.config.outer) (codeDetail reason)] reason detail)

/-- Check 4 of a BARRED entry (R72): the countdown is decreased and refuses the frame; from 1 it is loaded again and
the frame goes on as a probe, which checks 5 and 6 may still refuse. -/
def Obligations.TakeForBarredEntry : Prop :=
  ∀ (s : State) (f : DownFrame) (rest : List DownFrame) (i : Fin 64) (e : Entry),
    TakesFor s f rest i e → e.status = .barred →
    let loaded : Entry := { e with probeCountdown := s.policy.probeInterval.toNat }
    (2 ≤ e.probeCountdown →
      let counted : Entry := { e with probeCountdown := e.probeCountdown - 1 }
      exec .take s = .next
        ({ s with downQueue := rest, table := s.table.set i.val (some counted.refused) }.refusing f
          [s.eventNow .refused (some i) (some e.config.outer) 4] 4 (BitVec.ofNat 16 (e.probeCountdown - 1)))) ∧
    (e.probeCountdown = 1 →
      (∀ reason detail, FailsChecks f e reason detail →
        exec .take s = .next
          ({ s with downQueue := rest, table := s.table.set i.val (some loaded.refused) }.refusing f
            [s.eventNow .refused (some i) (some e.config.outer) (codeDetail reason)] reason detail)) ∧
      (PassesChecks f e →
        exec .take s = .next
          ({ s with downQueue := rest, table := s.table.set i.val (some loaded) }.forwarding f i e true [])))

/-- A frame that passes every check is forwarded (R75, R79, R80), in both modes; the budget of a GRANT is its two
payload characters, high first (R74). -/
def Obligations.TakeForwarded : Prop :=
  (∀ h l : Byte, budgetOf [h, l] = half h l) ∧
  ∀ (s : State) (f : DownFrame) (rest : List DownFrame) (i : Fin 64) (e : Entry),
    TakesFor s f rest i e → e.status = .enabled → PassesChecks f e →
    exec .take s = .next ({ s with downQueue := rest }.forwarding f i e false [])

/-- OBSERVE (R78): TOKEN_DENIED, and NOT_POLLED for a REQUEST, refuse as in ENFORCE; of the other failures the first in
check order is recorded with the observed flag set, and the frame is forwarded. -/
def Obligations.TakeInObserve : Prop :=
  ∀ (s : State) (f : DownFrame) (rest : List DownFrame) (i : Fin 64) (e : Entry),
    TakesFor s f rest i e → s.policy.mode = .observe →
    let refused (reason : Byte) (detail : Half) : State :=
      { s with downQueue := rest, table := s.table.set i.val (some e.refused) }.refusing f
        [s.eventNow .refused (some i) (some e.config.outer) (codeDetail reason)] reason detail
    let observed (reason : Byte) : State :=
      { s with downQueue := rest, table := s.table.set i.val (some e.refused) }.forwarding f i e false
        [s.eventNow .refused (some i) (some e.config.outer) (half 1 reason)]
    (f.kind = .request → e.config.polled = false → exec .take s = .next (refused 5 0)) ∧
    (f.kind = .grant → e.config.token = false ∨ budgetOf f.payload = 0 →
      exec .take s = .next (refused 6 (budgetOf f.payload))) ∧
    ((f.kind = .request → e.config.polled = true) →
      (f.kind = .grant → e.config.token = true ∧ budgetOf f.payload ≠ 0) →
      (e.status = .disabled → exec .take s = .next (observed 3)) ∧
      (e.status ≠ .disabled → f.kind = .send → e.config.polled = false → exec .take s = .next (observed 5)) ∧
      (e.status ≠ .disabled → f.kind ≠ .grant → e.config.polled = true →
        e.config.maxRequest.toNat < f.payload.length → exec .take s = .next (observed 7)))

/-! ### Management -/

/-- IDENTIFY returns the fixed values and changes nothing but the Slot and the Up Queue (R174, R193). -/
def Obligations.IdentifyAnswers : Prop :=
  ∀ s : State, RequestReady s 1 [] →
    exec .identify s = .next (s.replying 1 0 0 [0x46, 0x00, 0x40, 1, 64, 4, 8, 32] none)

/-- GET_STATE returns the state block (R175, section 12.3.1) and changes nothing else. -/
def Obligations.GetStateAnswers : Prop :=
  ∀ s : State, RequestReady s 2 [] → ∃ device engagement mode muted,
    exec .getState s = .next (s.replying 2 0 0
      ([device, mode] ++ engagement ++
        [BitVec.ofNat 8 s.downQueue.length, BitVec.ofNat 8 s.up.frames.length,
         if s.up.exchangeHeld = true then 3 else 2, BitVec.ofNat 8 s.events.records.length, s.events.lost, muted]) none) ∧
    (s.device = .standby → device = 0) ∧ (s.device = .run → device = 1) ∧ (s.device = .drain → device = 2) ∧
    mode = (if s.policy.mode = .enforce then 0 else 1) ∧ muted = (if s.segment.state = .muted then 1 else 0) ∧
    (s.engagement = none → engagement = [0, 0, 0xFF, 0, 0, 0, 0, 0, 0, 0, 0, 0]) ∧
    ∀ g, s.engagement = some g → ∃ state kind : Byte,
      engagement =
        [state, kind, g.index.elim 0xFF (fun i => BitVec.ofNat 8 i.val), if g.probe = true then 1 else 0] ++
          wordBytes g.timeOpened ++ wordBytes (g.headArrival.getD 0xFFFFFFFF) ∧
      (g.kind = .request → kind = 0) ∧ (g.kind = .send → kind = 2) ∧ (g.kind = .grant → kind = 4) ∧
      (g.state = .sending → state = 1) ∧ (g.state = .awaiting → state = 2) ∧ (g.state = .receiving → state = 3) ∧
      (g.state = .holding → state = 4) ∧ ∀ b, g.state = .settling b → state = 5

/-- SET_STATE (R157, R176): each row of the table, with the device state after the command as the result; any other
target is answered BAD_VALUE and changes no state. -/
def Obligations.SetStateRows : Prop :=
  ∀ (s : State) (v : Byte), RequestReady s 3 [v] →
    (v = 1 → exec .setState s = .next ({ s with device := .run }.replying 3 0 0 [1] none)) ∧
    (v = 0 → s.device = .run → s.engagement ≠ none →
      exec .setState s = .next ({ s with device := .drain }.replying 3 0 0 [2] none)) ∧
    (v = 0 → s.device = .run → s.engagement = none →
      exec .setState s = .next ({ s with device := .standby }.replying 3 0 0 [0] none)) ∧
    (v = 0 → s.device = .standby → exec .setState s = .next (s.replying 3 0 0 [0] none)) ∧
    (v = 0 → s.device = .drain → exec .setState s = .next (s.replying 3 0 0 [2] none)) ∧
    (v ≠ 0 → v ≠ 1 → exec .setState s = .next (s.replying 3 5 0 [] none))

/-- READ_POLICY returns the record as it stands (R168, R177); WRITE_POLICY is refused with WRONG_STATE in RUN and
DRAIN, and in STANDBY the first of P1 to P7 that fails decides the reply (R164). -/
def Obligations.PolicyReadAndChecked : Prop :=
  (∀ s : State, RequestReady s 4 [] →
    exec .readPolicy s = .next (s.replying 4 0 0
      ([s.policy.gateAddress, s.policy.gapTime] ++ halfBytes s.policy.jabberLimit ++
        [s.policy.strikeThreshold, s.policy.probeInterval, if s.policy.broadcastAllowed = true then 1 else 0,
         if s.policy.mode = .enforce then 0 else 1, if s.policy.uplinkRate.mode = .normal then 0 else 1] ++
        halfBytes s.policy.uplinkRate.step ++ [if s.policy.segmentRate.mode = .normal then 0 else 1] ++
        halfBytes s.policy.segmentRate.step) none)) ∧
  ∀ (s : State) (args : List Byte) (p : Policy), RequestReady s 5 args → readPolicyRecord args = some p →
    (s.device = .run → exec .writePolicy s = .next (s.replying 5 7 1 [] none)) ∧
    (s.device = .drain → exec .writePolicy s = .next (s.replying 5 7 2 [] none)) ∧
    ∀ code status, s.device = .standby → FirstFails (policyRules s.table p) code status →
      exec .writePolicy s = .next (s.replying 5 status (codeDetail code) [] none)

/-- A WRITE_POLICY that passes its checks (R165, R166, R167): the record in force, the table and the segment rate
changed, a MUTED receiver freed by a shorter gap, or muted by a lowered limit, RELEASED for each barred entry, and the
reply with the new gate address and the mark of a changed uplink rate. Two clauses are the model's choice: a counter's
step owed to the gap or limit that the write moves is made first (`State.recounted`, log 3), and which of JABBER and
the RELEASED records comes first is open (log 11). -/
def Obligations.PolicyWritten : Prop :=
  ∀ (s : State) (args : List Byte) (p : Policy), RequestReady s 5 args → readPolicyRecord args = some p →
    s.device = .standby → s.engagement = none → AllHold (policyRules s.table p) →
    let counted := s.recounted p
    let receiver : ReceiverState :=
      if p.gapTime.toNat ≤ counted.segment.silence ∧ s.segment.state = .muted then .lineIdle else s.segment.state
    let jabbers :=
      s.transmitter.holdsLine = false ∧ receiver ≠ .muted ∧ p.jabberLimit.toNat < counted.segment.activity
    let jabber := if jabbers then [s.eventNow .jabber none none 0] else []
    ∃ table : Table, (∀ i, table.get i = (s.table.get i).map fun e => e.repoliced s.policy p) ∧
    ∃ (free : Nat) (records : List EventRecord),
      (records = jabber ++ s.releasedRecords p ∨ records = s.releasedRecords p ++ jabber) ∧
      let written : State := { counted with
        policy := p
        table := table
        segmentRate := if s.policy.segmentRate = p.segmentRate then s.segmentRate else p.segmentRate
        segment := { counted.segment with state := receiver }
        freeCount := free }
      exec .writePolicy s = .next (((if jabbers then written.cutOff .muted else written).posting records).replying 5 0 0 []
        (if s.policy.uplinkRate = p.uplinkRate then none else some (.uplinkRate p.uplinkRate)))

/-- WRITE_ENTRY (R14, R15, R19, R178): the first of E1 to E10 that fails decides the reply and changes nothing; a write
that passes is held as the pending update of the engaged entry with PENDING, and applied at once to any other. Absent
fields are not stored; that they hold 0 is log 20. -/
def Obligations.WriteEntryActs : Prop :=
  ∀ (s : State) (index outer inner admin polled token maxRequest maxResponse d1 d0 c1 c0 divider : Byte),
    RequestReady s 6 [index, outer, inner, admin, polled, token, maxRequest, maxResponse, d1, d0, c1, c0, divider] →
    let received : Configuration :=
      { outer := outer, inner := inner, admin := if admin = 0 then .disabled else .enabled,
        polled := decide (polled ≠ 0), token := decide (token ≠ 0), maxRequest := maxRequest,
        maxResponse := maxResponse, deadline := half d1 d0, tokenCap := half c1 c0, publishDivider := divider }
    let stored : Configuration :=
      { received with
        deadline := if polled = 0 then 0 else half d1 d0
        tokenCap := if token = 0 then 0 else half c1 c0
        publishDivider := if token = 0 then 0 else divider }
    let rules := entryRules s.table s.policy.gateAddress index received
    (∀ code status, FirstFails rules code status →
      exec .writeEntry s = .next (s.replying 6 status (codeDetail code) [] none)) ∧
    (AllHold rules → ∀ i : Fin 64, i.val = index.toNat →
      (s.engagedIndex ≠ some i →
        exec .writeEntry s = .next
          ({ s with
            table := s.table.set i.val (some (applyWrite (s.table.get i) stored s.policy.probeInterval)) }.replying
            6 0 0 [] none)) ∧
      ∀ e, s.engagedIndex = some i → s.table.get i = some e →
        exec .writeEntry s = .next
          ({ s with table := s.table.set i.val (some { e with pending := some (.write stored) }) }.replying 6 1 0 []
            none))

/-- What a write leaves at its entry: one that creates the entry or changes an address starts every runtime field
afresh (R17); one that keeps both addresses keeps them, with the adjustments for admin and for the divider (R16). -/
def Obligations.RuntimeFieldsOfWrites : Prop :=
  ∀ (c : Configuration) (interval : Byte),
    let fresh : Entry :=
      { config := c, status := if c.admin = .enabled then .enabled else .disabled, strikes := 0,
        probeCountdown := interval.toNat, dividerCount := 0, turnarounds := { last := none, min := none, max := none },
        statistics :=
          { exchanges := 0, silent := 0, damaged := 0, rejected := 0, late := 0, refused := 0, published := 0,
            thinned := 0, reclaims := 0 },
        outcomes := 0, lastOutcome := none, pending := none }
    applyWrite none c interval = fresh ∧
    ∀ e : Entry,
      (e.config.outer ≠ c.outer ∨ e.config.inner ≠ c.inner → applyWrite (some e) c interval = fresh) ∧
      (e.config.outer = c.outer → e.config.inner = c.inner →
        let enabling := e.config.admin = .disabled ∧ c.admin = .enabled
        let disabling := e.config.admin = .enabled ∧ c.admin = .disabled
        applyWrite (some e) c interval =
          { e with
            config := c
            status := if enabling then .enabled else if disabling then .disabled else e.status
            strikes := if enabling then 0 else e.strikes
            probeCountdown := if enabling then interval.toNat else e.probeCountdown
            dividerCount :=
              if e.config.publishDivider = c.publishDivider ∧ e.config.token = c.token then e.dividerCount else 0
            pending := none })

/-- CLEAR_ENTRY (R18, R179): BAD_INDEX above 63; OK without change for an empty entry; the engaged entry holds a DELETE
with PENDING; any other valid entry becomes empty. -/
def Obligations.ClearEntryActs : Prop :=
  ∀ (s : State) (v : Byte), RequestReady s 7 [v] →
    (63 < v.toNat → exec .clearEntry s = .next (s.replying 7 4 (codeDetail v) [] none)) ∧
    ∀ i : Fin 64, i.val = v.toNat →
      (s.table.get i = none → exec .clearEntry s = .next (s.replying 7 0 0 [] none)) ∧
      ∀ e, s.table.get i = some e →
        (s.engagedIndex = some i →
          exec .clearEntry s = .next
            ({ s with table := s.table.set i.val (some { e with pending := some .delete }) }.replying 7 1 0 [] none)) ∧
        (s.engagedIndex ≠ some i →
          exec .clearEntry s = .next ({ s with table := s.table.set i.val none }.replying 7 0 0 [] none))

/-- READ_ENTRIES and READ_NEXT (R23, R181): n records from the start or the Table Pointer on, 63 followed by 0, the
pointer left behind the last; a start above 63 and an n outside 1 to 4 are refused and move nothing. -/
def Obligations.EntriesRead : Prop :=
  ∀ (s : State) (n : Byte),
    let records (i : Fin 64) : List Byte := (List.range n.toNat).flatMap fun k =>
      let m : Fin 64 := Fin.ofNat 64 (i.val + k)
      entryRecord m (s.table.get m)
    let after (i : Fin 64) : State := { s with tablePointer := Fin.ofNat 64 (i.val + n.toNat) }
    (∀ v, RequestReady s 8 [v, n] →
      (63 < v.toNat → exec .readEntries s = .next (s.replying 8 4 (codeDetail v) [] none)) ∧
      ∀ i : Fin 64, i.val = v.toNat →
        (n.toNat < 1 ∨ 4 < n.toNat → exec .readEntries s = .next (s.replying 8 5 0 [] none)) ∧
        (1 ≤ n.toNat → n.toNat ≤ 4 → exec .readEntries s = .next ((after i).replying 8 0 0 (records i) none))) ∧
    (RequestReady s 9 [n] →
      (n.toNat < 1 ∨ 4 < n.toNat → exec .readNext s = .next (s.replying 9 5 0 [] none)) ∧
      (1 ≤ n.toNat → n.toNat ≤ 4 →
        exec .readNext s = .next ((after s.tablePointer).replying 9 0 0 (records s.tablePointer) none)))

/-- The 45 characters of an entry record and the nine of an event record, with the code of each event kind and of each
kind of damage (R24, R194, sections 12.3.3, 12.4 and 12.5). -/
def Obligations.RecordsAsSent : Prop :=
  (∀ i : Fin 64, entryRecord i none = 0 :: BitVec.ofNat 8 i.val :: List.replicate 43 0) ∧
  (∀ (i : Fin 64) (e : Entry), (entryRecord i (some e)).length = 45 ∧ ∃ pending status last : Byte,
    entryRecord i (some e) =
      [1, BitVec.ofNat 8 i.val, e.config.outer, e.config.inner, if e.config.admin = .enabled then 1 else 0,
       if e.config.polled = true then 1 else 0, if e.config.token = true then 1 else 0, e.config.maxRequest,
       e.config.maxResponse] ++ halfBytes e.config.deadline ++ halfBytes e.config.tokenCap ++
      [e.config.publishDivider, pending, status, BitVec.ofNat 8 e.strikes, BitVec.ofNat 8 e.probeCountdown,
       BitVec.ofNat 8 e.dividerCount] ++ halfBytes (e.turnarounds.last.getD 0xFFFF) ++
      halfBytes (e.turnarounds.min.getD 0xFFFF) ++ halfBytes (e.turnarounds.max.getD 0xFFFF) ++
      halfBytes e.statistics.exchanges ++ halfBytes e.statistics.silent ++ halfBytes e.statistics.damaged ++
      halfBytes e.statistics.rejected ++ halfBytes e.statistics.late ++ halfBytes e.statistics.refused ++
      halfBytes e.statistics.published ++ halfBytes e.statistics.thinned ++ halfBytes e.statistics.reclaims ++
      [e.outcomes, last] ∧
    (e.pending = none → pending = 0) ∧ (∀ c, e.pending = some (.write c) → pending = 1) ∧
    (e.pending = some .delete → pending = 2) ∧
    (e.status = .enabled → status = 1) ∧ (e.status = .barred → status = 2) ∧ (e.status = .disabled → status = 3) ∧
    (e.lastOutcome = none → last = 0) ∧
    ∀ k, e.lastOutcome = some k →
      last.toNat = match k with
        | .answered => 1 | .silent => 2 | .damaged => 3 | .rejected => 4
        | .late => 5 | .refused => 6 | .reclaimed => 7 | .jabber => 8) ∧
  (∀ r : EventRecord, ∃ kind : Byte,
    r.bytes = kind :: (wordBytes r.timestamp ++
      [r.index.elim 0xFF (fun i => BitVec.ofNat 8 i.val), r.outer.getD 0xFF] ++ halfBytes r.detail) ∧
    kind.toNat = match r.kind with
      | .refused => 1 | .downFull => 2 | .uplinkDamaged => 3 | .uplinkWrongKind => 4 | .mgmtOverrun => 5
      | .silent => 6 | .damaged => 7 | .rejected => 8 | .late => 9 | .stray => 10 | .barred => 11 | .wouldBar => 12
      | .released => 13 | .echoFault => 14 | .jabber => 15 | .abandoned => 16 | .tokenClamped => 17
      | .reclaimed => 18 | .publishDropped => 19 | .publishBadDest => 20 | .updateApplied => 21) ∧
  ∀ d : Damage, (codeDetail d.code).toNat = match d with
    | .fragment => 1 | .badLen => 2 | .check => 3 | .truncated => 4

/-- RELEASE and CLEAR_STATS (R22, R182): RELEASE makes a BARRED entry ENABLED with strike count 0 and RELEASED, and
leaves any other valid entry as it is; CLEAR_STATS clears the statistics, the outcomes and the turnarounds of one valid
entry, or of every one for FFh. -/
def Obligations.ReleaseAndClearStats : Prop :=
  ∀ (s : State) (v : Byte),
    let cleared (e : Entry) : Entry :=
      { e with
        statistics :=
          { exchanges := 0, silent := 0, damaged := 0, rejected := 0, late := 0, refused := 0, published := 0,
            thinned := 0, reclaims := 0 }
        outcomes := 0, lastOutcome := none, turnarounds := { last := none, min := none, max := none } }
    let badIndex := 63 < v.toNat ∨ ∃ i : Fin 64, i.val = v.toNat ∧ s.table.get i = none
    (RequestReady s 11 [v] →
      (badIndex → exec .release s = .next (s.replying 11 4 (codeDetail v) [] none)) ∧
      ∀ (i : Fin 64) e, i.val = v.toNat → s.table.get i = some e →
        (e.status ≠ .barred → exec .release s = .next (s.replying 11 0 0 [] none)) ∧
        (e.status = .barred →
          exec .release s = .next
            (({ s with table := s.table.set i.val (some { e with status := .enabled, strikes := 0 }) }.posting
              [s.eventNow .released (some i) (some e.config.outer) 2]).replying 11 0 0 [] none))) ∧
    (RequestReady s 12 [v] →
      (v = 0xFF → ∃ table : Table, (∀ i, table.get i = (s.table.get i).map cleared) ∧
        exec .clearStats s = .next ({ s with table := table }.replying 12 0 0 [] none)) ∧
      (v ≠ 0xFF → badIndex → exec .clearStats s = .next (s.replying 12 4 (codeDetail v) [] none)) ∧
      ∀ (i : Fin 64) e, i.val = v.toNat → s.table.get i = some e →
        exec .clearStats s = .next
          ({ s with table := s.table.set i.val (some (cleared e)) }.replying 12 0 0 [] none))

/-- TAKE_EVENTS (R146, R183): up to n of the oldest records leave the queue and stand in the reply, oldest first, then
the lost count, which becomes 0; an n outside 1 to 8 is refused. ATTN falls with the last record (R147). -/
def Obligations.TakeEventsActs : Prop :=
  ∀ (s : State) (n : Byte), RequestReady s 13 [n] →
    (n.toNat < 1 ∨ 8 < n.toNat → exec .takeEvents s = .next (s.replying 13 5 0 [] none)) ∧
    (1 ≤ n.toNat → n.toNat ≤ 8 → ∃ t, exec .takeEvents s = .next t ∧
      t = { s with events := { records := s.events.records.drop n.toNat, lost := 0 } }.replying 13 0 0
        ((s.events.records.take n.toNat).flatMap EventRecord.bytes ++ [s.events.lost]) none ∧
      (s.events.records.length ≤ n.toNat → t.attn = false))

/-- READ_TIME answers the Line Clock, and SET_TIME loads it with any value; neither touches another timer (R184). -/
def Obligations.LineClockReadAndSet : Prop :=
  (∀ s : State, RequestReady s 14 [] → exec .readTime s = .next (s.replying 14 0 0 (wordBytes s.clock) none)) ∧
  ∀ (s : State) (w : Word), RequestReady s 15 (wordBytes w) →
    exec .setTime s = .next ({ s with clock := w }.replying 15 0 0 [] none)

/-- ABANDON (R86, R101, R126, R185): what it does in each state of the Engagement, with the state found as the result;
the event and the answer stand before the reply. That an abort gives up a frame held behind another is log 8; that a
silence of two which is owed as a frame is truncated has come about is log 3. Both are the model's choice. -/
def Obligations.AbandonActs : Prop :=
  ∀ s : State, RequestReady s 16 [] →
    let answered (t : State) (found : Byte) : Prop := exec .abandon s = .next (t.replying 16 0 0 [found] none)
    (s.engagement = none → answered s 0) ∧
    ∀ g, s.engagement = some g →
      let event (found : Half) := s.eventNow .abandoned g.index (g.index.map fun _ => g.outer) found
      (g.state = .sending →
        answered (State.settlingFrom
          ({ s with transmitter := s.transmitter.abort }.givingUp g [event 1] 10 1) g false) 1) ∧
      (g.state = .awaiting →
        answered (State.settlingFrom (s.answering [event 2] (substituteOf g.outer 10 2)) g true) 2) ∧
      (g.state = .receiving →
        answered (State.settlingFrom (s.truncated.answering [event 3] (substituteOf g.outer 10 3)) g true) 3) ∧
      (g.state = .holding →
        answered (State.settlingFrom (s.truncated.answering [event 4] (returnOf g.outer true s.token)) g false) 4) ∧
      ∀ b, g.state = .settling b → answered s 5

/-- The first two steps of R172: a code that names no command, an empty request, and a request of the wrong length for
its command are answered and change nothing else. -/
def Obligations.MalformedRequestsAnswered : Prop :=
  (∀ (s : State) (code : Byte) (args : List Byte), RequestReady s code args → code = 0 ∨ 17 < code.toNat →
    exec .badCommand s = .next (s.replying code 2 0 [] none)) ∧
  (∀ s : State, s.slot = some [] → s.up.managementHeld = true → s.works = true →
    exec .badCommand s = .next (s.replying 0 3 0 [] none)) ∧
  ∀ (s : State) (c : Instr) (code : Byte) (length : Nat) (args : List Byte), (c, code, length) ∈ requestTable →
    RequestReady s code args → args.length + 1 ≠ length →
    exec c s = .next (s.replying code 3 (BitVec.ofNat 16 (args.length + 1)) [] none)

/-- A command whose occasion does not hold leaves the state as it was. This is the model's choice (log 2, log 14); that
LINE_QUIET has no occasion while SDRV is asserted is log 5. The characters on the two lines, CHARACTER_TIME and
RESET_ASSERTED have no occasion of their own. -/
def Obligations.NoOccasionNoEffect : Prop :=
  ∀ s : State,
    (∀ c code length, (c, code, length) ∈ requestTable → (∀ args, ¬ RequestReady s code args) → exec c s = .next s) ∧
    (s.slot = none ∨ s.up.managementHeld = false ∨ s.works = false ∨
        (∃ code args, s.slot = some (code :: args) ∧ 1 ≤ code.toNat ∧ code.toNat ≤ 17) →
      exec .badCommand s = .next s) ∧
    (s.works = false → exec .lineQuiet s = .next s ∧ exec .transmissionComplete s = .next s ∧
      (∀ heard, exec (.echoFault heard) s = .next s) ∧ (∀ v, exec (.uplinkFrameEnd v) s = .next s) ∧
      ∀ p, exec (.fragmentSilence p) s = .next s) ∧
    ((s.works = false ∨ s.transmitter.holdsLine = true ∨ s.segment.state = .muted) →
      exec .jabber s = .next s ∧ exec (.fragmentSilence .segment) s = .next s ∧
      ∀ v, exec (.headArrival v) s = .next s ∧ exec (.segmentFrameEnd v) s = .next s) ∧
    (s.segment.activity < s.policy.jabberLimit.toNat → exec .jabber s = .next s) ∧
    (s.segment.silence + 1 ≠ s.policy.gapTime.toNat ∨ s.segment.midCharacter = true ∨ s.sdrv = true →
      exec .lineQuiet s = .next s) ∧
    ((∀ f sent compared, s.transmitter ≠ .onLine f sent compared) →
      exec .transmissionComplete s = .next s ∧ ∀ heard, exec (.echoFault heard) s = .next s) ∧
    (∀ f sent compared, s.transmitter = .onLine f sent compared →
      (compared ≠ f.payload.length + 5 ∨ sent < compared → exec .transmissionComplete s = .next s) ∧
      (sent < compared + 2 → exec (.echoFault none) s = .next s) ∧
      ∀ c, (f.chars[compared]? = some c ∨ f.chars[compared]? = none ∨ sent < compared) →
        exec (.echoFault (some c)) s = .next s) ∧
    ((∀ left held, s.transmitter ≠ .aborting left held) → exec .abortEnd s = .next s) ∧
    (∀ left held, s.transmitter = .aborting left held → 2 ≤ left.length → exec .abortEnd s = .next s) ∧
    ((∀ g, s.engagement = some g → g.state ≠ .awaiting) → exec .deadlineExpiry s = .next s) ∧
    (∀ g j e, s.engagement = some g → g.index = some j → s.table.get j = some e →
      s.watch + 1 ≠ e.config.deadline.toNat → exec .deadlineExpiry s = .next s) ∧
    ((∀ g, s.engagement = some g → g.state ≠ .holding) ∨ s.token ≠ 1 → exec .tokenExpiry s = .next s) ∧
    (s.uplinkTransmitter = .idle → exec .uplinkTransmissionComplete s = .next s) ∧
    (s.uplink.frame = none → (∀ v, exec (.uplinkFrameEnd v) s = .next s) ∧ exec (.fragmentSilence .uplink) s = .next s) ∧
    (∀ f, s.uplink.frame = some f →
      ¬ (f.damage = none ∧ ∃ len : Byte, f.kept[3]? = some len ∧ f.kept.length = len.toNat + 5) →
      ∀ v, exec (.uplinkFrameEnd v) s = .next s) ∧
    (s.uplink.silence ≠ 1 ∨ s.uplink.midCharacter = true → exec (.fragmentSilence .uplink) s = .next s) ∧
    ((∀ f, s.segment.state ≠ .inFrame f) →
      (∀ v, exec (.segmentFrameEnd v) s = .next s) ∧ exec (.fragmentSilence .segment) s = .next s) ∧
    (∀ f, s.segment.state = .inFrame f →
      ¬ (f.damage = none ∧ ∃ len : Byte, f.kept[3]? = some len ∧ f.kept.length = len.toNat + 5) →
      ∀ v, exec (.segmentFrameEnd v) s = .next s) ∧
    (s.segment.silence ≠ 1 ∨ s.segment.midCharacter = true → exec (.fragmentSilence .segment) s = .next s) ∧
    (s.device ≠ .reset → exec .resetReleased s = .next s) ∧
    (s.device ≠ .init → exec .initialisationCompletes s = .next s) ∧
    (((s.device ≠ .run ∧ s.device ≠ .standby) ∨ s.softResetUnderWay = true ∨ s.engagement ≠ none ∨ s.downQueue = [] ∨
        s.up.exchangeHeld = true ∨ 8 ≤ s.up.total) →
      exec .take s = .next s)
end

