-- ==== Sys2Proof/Laws/State.lean ====
section
/-! SUPPORT. What each named update of the state leaves in each field: one lemma per field, true by `rfl`. -/

namespace Sys2Proof.Machine

/-! ### `State.post` -/

@[simp] theorem State.post_device (s : State) (k : EventKind) (i : Option (Fin 64)) (o : Option Byte) (d : Half) :
    (s.post k i o d).device = s.device := rfl
@[simp] theorem State.post_policy (s : State) (k : EventKind) (i : Option (Fin 64)) (o : Option Byte) (d : Half) :
    (s.post k i o d).policy = s.policy := rfl
@[simp] theorem State.post_uplinkRate (s : State) (k : EventKind) (i : Option (Fin 64)) (o : Option Byte) (d : Half) :
    (s.post k i o d).uplinkRate = s.uplinkRate := rfl
@[simp] theorem State.post_segmentRate (s : State) (k : EventKind) (i : Option (Fin 64)) (o : Option Byte) (d : Half) :
    (s.post k i o d).segmentRate = s.segmentRate := rfl
@[simp] theorem State.post_uplink (s : State) (k : EventKind) (i : Option (Fin 64)) (o : Option Byte) (d : Half) :
    (s.post k i o d).uplink = s.uplink := rfl
@[simp] theorem State.post_uplinkTransmitter (s : State) (k : EventKind) (i : Option (Fin 64)) (o : Option Byte) (d :
    Half) :
    (s.post k i o d).uplinkTransmitter = s.uplinkTransmitter := rfl
@[simp] theorem State.post_segment (s : State) (k : EventKind) (i : Option (Fin 64)) (o : Option Byte) (d : Half) :
    (s.post k i o d).segment = s.segment := rfl
@[simp] theorem State.post_transmitter (s : State) (k : EventKind) (i : Option (Fin 64)) (o : Option Byte) (d : Half) :
    (s.post k i o d).transmitter = s.transmitter := rfl
@[simp] theorem State.post_downQueue (s : State) (k : EventKind) (i : Option (Fin 64)) (o : Option Byte) (d : Half) :
    (s.post k i o d).downQueue = s.downQueue := rfl
@[simp] theorem State.post_slot (s : State) (k : EventKind) (i : Option (Fin 64)) (o : Option Byte) (d : Half) :
    (s.post k i o d).slot = s.slot := rfl
@[simp] theorem State.post_up (s : State) (k : EventKind) (i : Option (Fin 64)) (o : Option Byte) (d : Half) :
    (s.post k i o d).up = s.up := rfl
@[simp] theorem State.post_table (s : State) (k : EventKind) (i : Option (Fin 64)) (o : Option Byte) (d : Half) :
    (s.post k i o d).table = s.table := rfl
@[simp] theorem State.post_tablePointer (s : State) (k : EventKind) (i : Option (Fin 64)) (o : Option Byte) (d : Half) :
    (s.post k i o d).tablePointer = s.tablePointer := rfl
@[simp] theorem State.post_engagement (s : State) (k : EventKind) (i : Option (Fin 64)) (o : Option Byte) (d : Half) :
    (s.post k i o d).engagement = s.engagement := rfl
@[simp] theorem State.post_watch (s : State) (k : EventKind) (i : Option (Fin 64)) (o : Option Byte) (d : Half) :
    (s.post k i o d).watch = s.watch := rfl
@[simp] theorem State.post_token (s : State) (k : EventKind) (i : Option (Fin 64)) (o : Option Byte) (d : Half) :
    (s.post k i o d).token = s.token := rfl
@[simp] theorem State.post_lastClosed (s : State) (k : EventKind) (i : Option (Fin 64)) (o : Option Byte) (d : Half) :
    (s.post k i o d).lastClosed = s.lastClosed := rfl
@[simp] theorem State.post_clock (s : State) (k : EventKind) (i : Option (Fin 64)) (o : Option Byte) (d : Half) :
    (s.post k i o d).clock = s.clock := rfl
@[simp] theorem State.post_owed (s : State) (k : EventKind) (i : Option (Fin 64)) (o : Option Byte) (d : Half) :
    (s.post k i o d).owed = s.owed := rfl
@[simp] theorem State.post_freeCount (s : State) (k : EventKind) (i : Option (Fin 64)) (o : Option Byte) (d : Half) :
    (s.post k i o d).freeCount = s.freeCount := rfl
@[simp] theorem State.post_pending (s : State) (k : EventKind) (i : Option (Fin 64)) (o : Option Byte) (d : Half) :
    (s.post k i o d).pending = s.pending := rfl
@[simp] theorem State.post_events (s : State) (k : EventKind) (i : Option (Fin 64)) (o : Option Byte) (d : Half) :
    (s.post k i o d).events =
      s.events.post { kind := k, timestamp := s.clock, index := i, outer := o, detail := d } := rfl

/-! ### `State.beginUplink` -/

@[simp] theorem State.beginUplink_device (s : State) : s.beginUplink.device = s.device := rfl
@[simp] theorem State.beginUplink_policy (s : State) : s.beginUplink.policy = s.policy := rfl
@[simp] theorem State.beginUplink_uplinkRate (s : State) : s.beginUplink.uplinkRate = s.uplinkRate := rfl
@[simp] theorem State.beginUplink_segmentRate (s : State) : s.beginUplink.segmentRate = s.segmentRate := rfl
@[simp] theorem State.beginUplink_uplink (s : State) : s.beginUplink.uplink = s.uplink := rfl
@[simp] theorem State.beginUplink_segment (s : State) : s.beginUplink.segment = s.segment := rfl
@[simp] theorem State.beginUplink_transmitter (s : State) : s.beginUplink.transmitter = s.transmitter := rfl
@[simp] theorem State.beginUplink_downQueue (s : State) : s.beginUplink.downQueue = s.downQueue := rfl
@[simp] theorem State.beginUplink_slot (s : State) : s.beginUplink.slot = s.slot := rfl
@[simp] theorem State.beginUplink_up (s : State) : s.beginUplink.up = s.up := rfl
@[simp] theorem State.beginUplink_table (s : State) : s.beginUplink.table = s.table := rfl
@[simp] theorem State.beginUplink_tablePointer (s : State) : s.beginUplink.tablePointer = s.tablePointer := rfl
@[simp] theorem State.beginUplink_engagement (s : State) : s.beginUplink.engagement = s.engagement := rfl
@[simp] theorem State.beginUplink_watch (s : State) : s.beginUplink.watch = s.watch := rfl
@[simp] theorem State.beginUplink_token (s : State) : s.beginUplink.token = s.token := rfl
@[simp] theorem State.beginUplink_lastClosed (s : State) : s.beginUplink.lastClosed = s.lastClosed := rfl
@[simp] theorem State.beginUplink_events (s : State) : s.beginUplink.events = s.events := rfl
@[simp] theorem State.beginUplink_clock (s : State) : s.beginUplink.clock = s.clock := rfl
@[simp] theorem State.beginUplink_owed (s : State) : s.beginUplink.owed = s.owed := rfl
@[simp] theorem State.beginUplink_freeCount (s : State) : s.beginUplink.freeCount = s.freeCount := rfl
@[simp] theorem State.beginUplink_pending (s : State) : s.beginUplink.pending = s.pending := rfl

/-! ### `State.enqueue` -/

@[simp] theorem State.enqueue_device (s : State) (f : UpFrame) : (s.enqueue f).device = s.device := rfl
@[simp] theorem State.enqueue_policy (s : State) (f : UpFrame) : (s.enqueue f).policy = s.policy := rfl
@[simp] theorem State.enqueue_uplinkRate (s : State) (f : UpFrame) : (s.enqueue f).uplinkRate = s.uplinkRate := rfl
@[simp] theorem State.enqueue_segmentRate (s : State) (f : UpFrame) : (s.enqueue f).segmentRate = s.segmentRate := rfl
@[simp] theorem State.enqueue_uplink (s : State) (f : UpFrame) : (s.enqueue f).uplink = s.uplink := rfl
@[simp] theorem State.enqueue_segment (s : State) (f : UpFrame) : (s.enqueue f).segment = s.segment := rfl
@[simp] theorem State.enqueue_transmitter (s : State) (f : UpFrame) : (s.enqueue f).transmitter = s.transmitter := rfl
@[simp] theorem State.enqueue_downQueue (s : State) (f : UpFrame) : (s.enqueue f).downQueue = s.downQueue := rfl
@[simp] theorem State.enqueue_slot (s : State) (f : UpFrame) : (s.enqueue f).slot = s.slot := rfl
@[simp] theorem State.enqueue_table (s : State) (f : UpFrame) : (s.enqueue f).table = s.table := rfl
@[simp] theorem State.enqueue_tablePointer (s : State) (f : UpFrame) :
    (s.enqueue f).tablePointer = s.tablePointer := rfl
@[simp] theorem State.enqueue_engagement (s : State) (f : UpFrame) : (s.enqueue f).engagement = s.engagement := rfl
@[simp] theorem State.enqueue_watch (s : State) (f : UpFrame) : (s.enqueue f).watch = s.watch := rfl
@[simp] theorem State.enqueue_token (s : State) (f : UpFrame) : (s.enqueue f).token = s.token := rfl
@[simp] theorem State.enqueue_lastClosed (s : State) (f : UpFrame) : (s.enqueue f).lastClosed = s.lastClosed := rfl
@[simp] theorem State.enqueue_events (s : State) (f : UpFrame) : (s.enqueue f).events = s.events := rfl
@[simp] theorem State.enqueue_clock (s : State) (f : UpFrame) : (s.enqueue f).clock = s.clock := rfl
@[simp] theorem State.enqueue_owed (s : State) (f : UpFrame) : (s.enqueue f).owed = s.owed := rfl
@[simp] theorem State.enqueue_freeCount (s : State) (f : UpFrame) : (s.enqueue f).freeCount = s.freeCount := rfl
@[simp] theorem State.enqueue_pending (s : State) (f : UpFrame) : (s.enqueue f).pending = s.pending := rfl
@[simp] theorem State.enqueue_up (s : State) (f : UpFrame) :
    (s.enqueue f).up = { s.up with frames := s.up.frames ++ [f] } := rfl

/-! ### `State.admitExchange` -/

@[simp] theorem State.admitExchange_device (s : State) (f : UpFrame) : (s.admitExchange f).device = s.device := rfl
@[simp] theorem State.admitExchange_policy (s : State) (f : UpFrame) : (s.admitExchange f).policy = s.policy := rfl
@[simp] theorem State.admitExchange_uplinkRate (s : State) (f : UpFrame) :
    (s.admitExchange f).uplinkRate = s.uplinkRate := rfl
@[simp] theorem State.admitExchange_segmentRate (s : State) (f : UpFrame) :
    (s.admitExchange f).segmentRate = s.segmentRate := rfl
@[simp] theorem State.admitExchange_uplink (s : State) (f : UpFrame) : (s.admitExchange f).uplink = s.uplink := rfl
@[simp] theorem State.admitExchange_segment (s : State) (f : UpFrame) : (s.admitExchange f).segment = s.segment := rfl
@[simp] theorem State.admitExchange_transmitter (s : State) (f : UpFrame) :
    (s.admitExchange f).transmitter = s.transmitter := rfl
@[simp] theorem State.admitExchange_downQueue (s : State) (f : UpFrame) :
    (s.admitExchange f).downQueue = s.downQueue := rfl
@[simp] theorem State.admitExchange_slot (s : State) (f : UpFrame) : (s.admitExchange f).slot = s.slot := rfl
@[simp] theorem State.admitExchange_table (s : State) (f : UpFrame) : (s.admitExchange f).table = s.table := rfl
@[simp] theorem State.admitExchange_tablePointer (s : State) (f : UpFrame) :
    (s.admitExchange f).tablePointer = s.tablePointer := rfl
@[simp] theorem State.admitExchange_engagement (s : State) (f : UpFrame) :
    (s.admitExchange f).engagement = s.engagement := rfl
@[simp] theorem State.admitExchange_watch (s : State) (f : UpFrame) : (s.admitExchange f).watch = s.watch := rfl
@[simp] theorem State.admitExchange_token (s : State) (f : UpFrame) : (s.admitExchange f).token = s.token := rfl
@[simp] theorem State.admitExchange_lastClosed (s : State) (f : UpFrame) :
    (s.admitExchange f).lastClosed = s.lastClosed := rfl
@[simp] theorem State.admitExchange_events (s : State) (f : UpFrame) : (s.admitExchange f).events = s.events := rfl
@[simp] theorem State.admitExchange_clock (s : State) (f : UpFrame) : (s.admitExchange f).clock = s.clock := rfl
@[simp] theorem State.admitExchange_owed (s : State) (f : UpFrame) : (s.admitExchange f).owed = s.owed := rfl
@[simp] theorem State.admitExchange_freeCount (s : State) (f : UpFrame) :
    (s.admitExchange f).freeCount = s.freeCount := rfl
@[simp] theorem State.admitExchange_pending (s : State) (f : UpFrame) : (s.admitExchange f).pending = s.pending := rfl
@[simp] theorem State.admitExchange_up (s : State) (f : UpFrame) :
    (s.admitExchange f).up = { s.up with frames := s.up.frames ++ [f], exchangeHeld := false } := rfl

/-! ### `State.admitManagement` -/

@[simp] theorem State.admitManagement_device (s : State) (f : UpFrame) : (s.admitManagement f).device = s.device := rfl
@[simp] theorem State.admitManagement_policy (s : State) (f : UpFrame) : (s.admitManagement f).policy = s.policy := rfl
@[simp] theorem State.admitManagement_uplinkRate (s : State) (f : UpFrame) :
    (s.admitManagement f).uplinkRate = s.uplinkRate := rfl
@[simp] theorem State.admitManagement_segmentRate (s : State) (f : UpFrame) :
    (s.admitManagement f).segmentRate = s.segmentRate := rfl
@[simp] theorem State.admitManagement_uplink (s : State) (f : UpFrame) : (s.admitManagement f).uplink = s.uplink := rfl
@[simp] theorem State.admitManagement_segment (s : State) (f : UpFrame) :
    (s.admitManagement f).segment = s.segment := rfl
@[simp] theorem State.admitManagement_transmitter (s : State) (f : UpFrame) :
    (s.admitManagement f).transmitter = s.transmitter := rfl
@[simp] theorem State.admitManagement_downQueue (s : State) (f : UpFrame) :
    (s.admitManagement f).downQueue = s.downQueue := rfl
@[simp] theorem State.admitManagement_table (s : State) (f : UpFrame) : (s.admitManagement f).table = s.table := rfl
@[simp] theorem State.admitManagement_tablePointer (s : State) (f : UpFrame) :
    (s.admitManagement f).tablePointer = s.tablePointer := rfl
@[simp] theorem State.admitManagement_engagement (s : State) (f : UpFrame) :
    (s.admitManagement f).engagement = s.engagement := rfl
@[simp] theorem State.admitManagement_watch (s : State) (f : UpFrame) : (s.admitManagement f).watch = s.watch := rfl
@[simp] theorem State.admitManagement_token (s : State) (f : UpFrame) : (s.admitManagement f).token = s.token := rfl
@[simp] theorem State.admitManagement_lastClosed (s : State) (f : UpFrame) :
    (s.admitManagement f).lastClosed = s.lastClosed := rfl
@[simp] theorem State.admitManagement_events (s : State) (f : UpFrame) : (s.admitManagement f).events = s.events := rfl
@[simp] theorem State.admitManagement_clock (s : State) (f : UpFrame) : (s.admitManagement f).clock = s.clock := rfl
@[simp] theorem State.admitManagement_owed (s : State) (f : UpFrame) : (s.admitManagement f).owed = s.owed := rfl
@[simp] theorem State.admitManagement_freeCount (s : State) (f : UpFrame) :
    (s.admitManagement f).freeCount = s.freeCount := rfl
@[simp] theorem State.admitManagement_pending (s : State) (f : UpFrame) :
    (s.admitManagement f).pending = s.pending := rfl
@[simp] theorem State.admitManagement_up (s : State) (f : UpFrame) :
    (s.admitManagement f).up = { s.up with frames := s.up.frames ++ [f], managementHeld := false } := rfl
@[simp] theorem State.admitManagement_slot (s : State) (f : UpFrame) : (s.admitManagement f).slot = none := rfl

/-! ### `State.grantManagement` -/

@[simp] theorem State.grantManagement_device (s : State) : s.grantManagement.device = s.device := rfl
@[simp] theorem State.grantManagement_policy (s : State) : s.grantManagement.policy = s.policy := rfl
@[simp] theorem State.grantManagement_uplinkRate (s : State) : s.grantManagement.uplinkRate = s.uplinkRate := rfl
@[simp] theorem State.grantManagement_segmentRate (s : State) : s.grantManagement.segmentRate = s.segmentRate := rfl
@[simp] theorem State.grantManagement_uplink (s : State) : s.grantManagement.uplink = s.uplink := rfl
@[simp] theorem State.grantManagement_uplinkTransmitter (s : State) :
    s.grantManagement.uplinkTransmitter = s.uplinkTransmitter := rfl
@[simp] theorem State.grantManagement_segment (s : State) : s.grantManagement.segment = s.segment := rfl
@[simp] theorem State.grantManagement_transmitter (s : State) : s.grantManagement.transmitter = s.transmitter := rfl
@[simp] theorem State.grantManagement_downQueue (s : State) : s.grantManagement.downQueue = s.downQueue := rfl
@[simp] theorem State.grantManagement_slot (s : State) : s.grantManagement.slot = s.slot := rfl
@[simp] theorem State.grantManagement_table (s : State) : s.grantManagement.table = s.table := rfl
@[simp] theorem State.grantManagement_tablePointer (s : State) : s.grantManagement.tablePointer = s.tablePointer := rfl
@[simp] theorem State.grantManagement_engagement (s : State) : s.grantManagement.engagement = s.engagement := rfl
@[simp] theorem State.grantManagement_watch (s : State) : s.grantManagement.watch = s.watch := rfl
@[simp] theorem State.grantManagement_token (s : State) : s.grantManagement.token = s.token := rfl
@[simp] theorem State.grantManagement_lastClosed (s : State) : s.grantManagement.lastClosed = s.lastClosed := rfl
@[simp] theorem State.grantManagement_events (s : State) : s.grantManagement.events = s.events := rfl
@[simp] theorem State.grantManagement_clock (s : State) : s.grantManagement.clock = s.clock := rfl
@[simp] theorem State.grantManagement_owed (s : State) : s.grantManagement.owed = s.owed := rfl
@[simp] theorem State.grantManagement_freeCount (s : State) : s.grantManagement.freeCount = s.freeCount := rfl
@[simp] theorem State.grantManagement_pending (s : State) : s.grantManagement.pending = s.pending := rfl
@[simp] theorem State.grantManagement_up (s : State) :
    s.grantManagement.up = { s.up with managementHeld := true } := rfl

/-! ### `State.setEntry` -/

@[simp] theorem State.setEntry_device (s : State) (i : Fin 64) (e : Option Entry) :
    (s.setEntry i e).device = s.device := rfl
@[simp] theorem State.setEntry_policy (s : State) (i : Fin 64) (e : Option Entry) :
    (s.setEntry i e).policy = s.policy := rfl
@[simp] theorem State.setEntry_uplinkRate (s : State) (i : Fin 64) (e : Option Entry) :
    (s.setEntry i e).uplinkRate = s.uplinkRate := rfl
@[simp] theorem State.setEntry_segmentRate (s : State) (i : Fin 64) (e : Option Entry) :
    (s.setEntry i e).segmentRate = s.segmentRate := rfl
@[simp] theorem State.setEntry_uplink (s : State) (i : Fin 64) (e : Option Entry) :
    (s.setEntry i e).uplink = s.uplink := rfl
@[simp] theorem State.setEntry_uplinkTransmitter (s : State) (i : Fin 64) (e : Option Entry) :
    (s.setEntry i e).uplinkTransmitter = s.uplinkTransmitter := rfl
@[simp] theorem State.setEntry_segment (s : State) (i : Fin 64) (e : Option Entry) :
    (s.setEntry i e).segment = s.segment := rfl
@[simp] theorem State.setEntry_transmitter (s : State) (i : Fin 64) (e : Option Entry) :
    (s.setEntry i e).transmitter = s.transmitter := rfl
@[simp] theorem State.setEntry_downQueue (s : State) (i : Fin 64) (e : Option Entry) :
    (s.setEntry i e).downQueue = s.downQueue := rfl
@[simp] theorem State.setEntry_slot (s : State) (i : Fin 64) (e : Option Entry) : (s.setEntry i e).slot = s.slot := rfl
@[simp] theorem State.setEntry_up (s : State) (i : Fin 64) (e : Option Entry) : (s.setEntry i e).up = s.up := rfl
@[simp] theorem State.setEntry_tablePointer (s : State) (i : Fin 64) (e : Option Entry) :
    (s.setEntry i e).tablePointer = s.tablePointer := rfl
@[simp] theorem State.setEntry_engagement (s : State) (i : Fin 64) (e : Option Entry) :
    (s.setEntry i e).engagement = s.engagement := rfl
@[simp] theorem State.setEntry_watch (s : State) (i : Fin 64) (e : Option Entry) :
    (s.setEntry i e).watch = s.watch := rfl
@[simp] theorem State.setEntry_token (s : State) (i : Fin 64) (e : Option Entry) :
    (s.setEntry i e).token = s.token := rfl
@[simp] theorem State.setEntry_lastClosed (s : State) (i : Fin 64) (e : Option Entry) :
    (s.setEntry i e).lastClosed = s.lastClosed := rfl
@[simp] theorem State.setEntry_events (s : State) (i : Fin 64) (e : Option Entry) :
    (s.setEntry i e).events = s.events := rfl
@[simp] theorem State.setEntry_clock (s : State) (i : Fin 64) (e : Option Entry) :
    (s.setEntry i e).clock = s.clock := rfl
@[simp] theorem State.setEntry_owed (s : State) (i : Fin 64) (e : Option Entry) : (s.setEntry i e).owed = s.owed := rfl
@[simp] theorem State.setEntry_freeCount (s : State) (i : Fin 64) (e : Option Entry) :
    (s.setEntry i e).freeCount = s.freeCount := rfl
@[simp] theorem State.setEntry_pending (s : State) (i : Fin 64) (e : Option Entry) :
    (s.setEntry i e).pending = s.pending := rfl
@[simp] theorem State.setEntry_table (s : State) (i : Fin 64) (e : Option Entry) :
    (s.setEntry i e).table = s.table.set i.val e := rfl

/-! ### `State.orderAbort` -/

@[simp] theorem State.orderAbort_device (s : State) : s.orderAbort.device = s.device := rfl
@[simp] theorem State.orderAbort_policy (s : State) : s.orderAbort.policy = s.policy := rfl
@[simp] theorem State.orderAbort_uplinkRate (s : State) : s.orderAbort.uplinkRate = s.uplinkRate := rfl
@[simp] theorem State.orderAbort_segmentRate (s : State) : s.orderAbort.segmentRate = s.segmentRate := rfl
@[simp] theorem State.orderAbort_uplink (s : State) : s.orderAbort.uplink = s.uplink := rfl
@[simp] theorem State.orderAbort_uplinkTransmitter (s : State) :
    s.orderAbort.uplinkTransmitter = s.uplinkTransmitter := rfl
@[simp] theorem State.orderAbort_segment (s : State) : s.orderAbort.segment = s.segment := rfl
@[simp] theorem State.orderAbort_downQueue (s : State) : s.orderAbort.downQueue = s.downQueue := rfl
@[simp] theorem State.orderAbort_slot (s : State) : s.orderAbort.slot = s.slot := rfl
@[simp] theorem State.orderAbort_up (s : State) : s.orderAbort.up = s.up := rfl
@[simp] theorem State.orderAbort_table (s : State) : s.orderAbort.table = s.table := rfl
@[simp] theorem State.orderAbort_tablePointer (s : State) : s.orderAbort.tablePointer = s.tablePointer := rfl
@[simp] theorem State.orderAbort_engagement (s : State) : s.orderAbort.engagement = s.engagement := rfl
@[simp] theorem State.orderAbort_watch (s : State) : s.orderAbort.watch = s.watch := rfl
@[simp] theorem State.orderAbort_token (s : State) : s.orderAbort.token = s.token := rfl
@[simp] theorem State.orderAbort_lastClosed (s : State) : s.orderAbort.lastClosed = s.lastClosed := rfl
@[simp] theorem State.orderAbort_events (s : State) : s.orderAbort.events = s.events := rfl
@[simp] theorem State.orderAbort_clock (s : State) : s.orderAbort.clock = s.clock := rfl
@[simp] theorem State.orderAbort_owed (s : State) : s.orderAbort.owed = s.owed := rfl
@[simp] theorem State.orderAbort_freeCount (s : State) : s.orderAbort.freeCount = s.freeCount := rfl
@[simp] theorem State.orderAbort_pending (s : State) : s.orderAbort.pending = s.pending := rfl
@[simp] theorem State.orderAbort_transmitter (s : State) : s.orderAbort.transmitter = s.transmitter.abort := rfl

/-! ### `State.setLastClosed` -/

@[simp] theorem State.setLastClosed_device (s : State) (g : Engagement) : (s.setLastClosed g).device = s.device := rfl
@[simp] theorem State.setLastClosed_policy (s : State) (g : Engagement) : (s.setLastClosed g).policy = s.policy := rfl
@[simp] theorem State.setLastClosed_uplinkRate (s : State) (g : Engagement) :
    (s.setLastClosed g).uplinkRate = s.uplinkRate := rfl
@[simp] theorem State.setLastClosed_segmentRate (s : State) (g : Engagement) :
    (s.setLastClosed g).segmentRate = s.segmentRate := rfl
@[simp] theorem State.setLastClosed_uplink (s : State) (g : Engagement) : (s.setLastClosed g).uplink = s.uplink := rfl
@[simp] theorem State.setLastClosed_uplinkTransmitter (s : State) (g : Engagement) :
    (s.setLastClosed g).uplinkTransmitter = s.uplinkTransmitter := rfl
@[simp] theorem State.setLastClosed_segment (s : State) (g : Engagement) :
    (s.setLastClosed g).segment = s.segment := rfl
@[simp] theorem State.setLastClosed_transmitter (s : State) (g : Engagement) :
    (s.setLastClosed g).transmitter = s.transmitter := rfl
@[simp] theorem State.setLastClosed_downQueue (s : State) (g : Engagement) :
    (s.setLastClosed g).downQueue = s.downQueue := rfl
@[simp] theorem State.setLastClosed_slot (s : State) (g : Engagement) : (s.setLastClosed g).slot = s.slot := rfl
@[simp] theorem State.setLastClosed_up (s : State) (g : Engagement) : (s.setLastClosed g).up = s.up := rfl
@[simp] theorem State.setLastClosed_table (s : State) (g : Engagement) : (s.setLastClosed g).table = s.table := rfl
@[simp] theorem State.setLastClosed_tablePointer (s : State) (g : Engagement) :
    (s.setLastClosed g).tablePointer = s.tablePointer := rfl
@[simp] theorem State.setLastClosed_engagement (s : State) (g : Engagement) :
    (s.setLastClosed g).engagement = s.engagement := rfl
@[simp] theorem State.setLastClosed_watch (s : State) (g : Engagement) : (s.setLastClosed g).watch = s.watch := rfl
@[simp] theorem State.setLastClosed_token (s : State) (g : Engagement) : (s.setLastClosed g).token = s.token := rfl
@[simp] theorem State.setLastClosed_events (s : State) (g : Engagement) : (s.setLastClosed g).events = s.events := rfl
@[simp] theorem State.setLastClosed_clock (s : State) (g : Engagement) : (s.setLastClosed g).clock = s.clock := rfl
@[simp] theorem State.setLastClosed_owed (s : State) (g : Engagement) : (s.setLastClosed g).owed = s.owed := rfl
@[simp] theorem State.setLastClosed_freeCount (s : State) (g : Engagement) :
    (s.setLastClosed g).freeCount = s.freeCount := rfl
@[simp] theorem State.setLastClosed_pending (s : State) (g : Engagement) :
    (s.setLastClosed g).pending = s.pending := rfl

/-! ### `State.setUplinkFrame` -/

@[simp] theorem State.setUplinkFrame_device (s : State) (f : Option OpenFrame) :
    (s.setUplinkFrame f).device = s.device := rfl
@[simp] theorem State.setUplinkFrame_policy (s : State) (f : Option OpenFrame) :
    (s.setUplinkFrame f).policy = s.policy := rfl
@[simp] theorem State.setUplinkFrame_uplinkRate (s : State) (f : Option OpenFrame) :
    (s.setUplinkFrame f).uplinkRate = s.uplinkRate := rfl
@[simp] theorem State.setUplinkFrame_segmentRate (s : State) (f : Option OpenFrame) :
    (s.setUplinkFrame f).segmentRate = s.segmentRate := rfl
@[simp] theorem State.setUplinkFrame_uplinkTransmitter (s : State) (f : Option OpenFrame) :
    (s.setUplinkFrame f).uplinkTransmitter = s.uplinkTransmitter := rfl
@[simp] theorem State.setUplinkFrame_segment (s : State) (f : Option OpenFrame) :
    (s.setUplinkFrame f).segment = s.segment := rfl
@[simp] theorem State.setUplinkFrame_transmitter (s : State) (f : Option OpenFrame) :
    (s.setUplinkFrame f).transmitter = s.transmitter := rfl
@[simp] theorem State.setUplinkFrame_downQueue (s : State) (f : Option OpenFrame) :
    (s.setUplinkFrame f).downQueue = s.downQueue := rfl
@[simp] theorem State.setUplinkFrame_slot (s : State) (f : Option OpenFrame) : (s.setUplinkFrame f).slot = s.slot := rfl
@[simp] theorem State.setUplinkFrame_up (s : State) (f : Option OpenFrame) : (s.setUplinkFrame f).up = s.up := rfl
@[simp] theorem State.setUplinkFrame_table (s : State) (f : Option OpenFrame) :
    (s.setUplinkFrame f).table = s.table := rfl
@[simp] theorem State.setUplinkFrame_tablePointer (s : State) (f : Option OpenFrame) :
    (s.setUplinkFrame f).tablePointer = s.tablePointer := rfl
@[simp] theorem State.setUplinkFrame_engagement (s : State) (f : Option OpenFrame) :
    (s.setUplinkFrame f).engagement = s.engagement := rfl
@[simp] theorem State.setUplinkFrame_watch (s : State) (f : Option OpenFrame) :
    (s.setUplinkFrame f).watch = s.watch := rfl
@[simp] theorem State.setUplinkFrame_token (s : State) (f : Option OpenFrame) :
    (s.setUplinkFrame f).token = s.token := rfl
@[simp] theorem State.setUplinkFrame_lastClosed (s : State) (f : Option OpenFrame) :
    (s.setUplinkFrame f).lastClosed = s.lastClosed := rfl
@[simp] theorem State.setUplinkFrame_events (s : State) (f : Option OpenFrame) :
    (s.setUplinkFrame f).events = s.events := rfl
@[simp] theorem State.setUplinkFrame_clock (s : State) (f : Option OpenFrame) :
    (s.setUplinkFrame f).clock = s.clock := rfl
@[simp] theorem State.setUplinkFrame_owed (s : State) (f : Option OpenFrame) : (s.setUplinkFrame f).owed = s.owed := rfl
@[simp] theorem State.setUplinkFrame_freeCount (s : State) (f : Option OpenFrame) :
    (s.setUplinkFrame f).freeCount = s.freeCount := rfl
@[simp] theorem State.setUplinkFrame_pending (s : State) (f : Option OpenFrame) :
    (s.setUplinkFrame f).pending = s.pending := rfl
@[simp] theorem State.setUplinkFrame_uplink (s : State) (f : Option OpenFrame) :
    (s.setUplinkFrame f).uplink = { s.uplink with frame := f } := rfl

/-! ### `State.hearUplink` -/

@[simp] theorem State.hearUplink_device (s : State) : s.hearUplink.device = s.device := rfl
@[simp] theorem State.hearUplink_policy (s : State) : s.hearUplink.policy = s.policy := rfl
@[simp] theorem State.hearUplink_uplinkRate (s : State) : s.hearUplink.uplinkRate = s.uplinkRate := rfl
@[simp] theorem State.hearUplink_segmentRate (s : State) : s.hearUplink.segmentRate = s.segmentRate := rfl
@[simp] theorem State.hearUplink_uplinkTransmitter (s : State) :
    s.hearUplink.uplinkTransmitter = s.uplinkTransmitter := rfl
@[simp] theorem State.hearUplink_segment (s : State) : s.hearUplink.segment = s.segment := rfl
@[simp] theorem State.hearUplink_transmitter (s : State) : s.hearUplink.transmitter = s.transmitter := rfl
@[simp] theorem State.hearUplink_downQueue (s : State) : s.hearUplink.downQueue = s.downQueue := rfl
@[simp] theorem State.hearUplink_slot (s : State) : s.hearUplink.slot = s.slot := rfl
@[simp] theorem State.hearUplink_up (s : State) : s.hearUplink.up = s.up := rfl
@[simp] theorem State.hearUplink_table (s : State) : s.hearUplink.table = s.table := rfl
@[simp] theorem State.hearUplink_tablePointer (s : State) : s.hearUplink.tablePointer = s.tablePointer := rfl
@[simp] theorem State.hearUplink_engagement (s : State) : s.hearUplink.engagement = s.engagement := rfl
@[simp] theorem State.hearUplink_watch (s : State) : s.hearUplink.watch = s.watch := rfl
@[simp] theorem State.hearUplink_token (s : State) : s.hearUplink.token = s.token := rfl
@[simp] theorem State.hearUplink_lastClosed (s : State) : s.hearUplink.lastClosed = s.lastClosed := rfl
@[simp] theorem State.hearUplink_events (s : State) : s.hearUplink.events = s.events := rfl
@[simp] theorem State.hearUplink_clock (s : State) : s.hearUplink.clock = s.clock := rfl
@[simp] theorem State.hearUplink_owed (s : State) : s.hearUplink.owed = s.owed := rfl
@[simp] theorem State.hearUplink_freeCount (s : State) : s.hearUplink.freeCount = s.freeCount := rfl
@[simp] theorem State.hearUplink_pending (s : State) : s.hearUplink.pending = s.pending := rfl
@[simp] theorem State.hearUplink_uplink (s : State) :
    s.hearUplink.uplink = { s.uplink with silence := 0, midCharacter := false } := rfl

/-! ### `State.setReceiver` -/

@[simp] theorem State.setReceiver_device (s : State) (r : ReceiverState) : (s.setReceiver r).device = s.device := rfl
@[simp] theorem State.setReceiver_policy (s : State) (r : ReceiverState) : (s.setReceiver r).policy = s.policy := rfl
@[simp] theorem State.setReceiver_uplinkRate (s : State) (r : ReceiverState) :
    (s.setReceiver r).uplinkRate = s.uplinkRate := rfl
@[simp] theorem State.setReceiver_segmentRate (s : State) (r : ReceiverState) :
    (s.setReceiver r).segmentRate = s.segmentRate := rfl
@[simp] theorem State.setReceiver_uplink (s : State) (r : ReceiverState) : (s.setReceiver r).uplink = s.uplink := rfl
@[simp] theorem State.setReceiver_uplinkTransmitter (s : State) (r : ReceiverState) :
    (s.setReceiver r).uplinkTransmitter = s.uplinkTransmitter := rfl
@[simp] theorem State.setReceiver_transmitter (s : State) (r : ReceiverState) :
    (s.setReceiver r).transmitter = s.transmitter := rfl
@[simp] theorem State.setReceiver_downQueue (s : State) (r : ReceiverState) :
    (s.setReceiver r).downQueue = s.downQueue := rfl
@[simp] theorem State.setReceiver_slot (s : State) (r : ReceiverState) : (s.setReceiver r).slot = s.slot := rfl
@[simp] theorem State.setReceiver_up (s : State) (r : ReceiverState) : (s.setReceiver r).up = s.up := rfl
@[simp] theorem State.setReceiver_table (s : State) (r : ReceiverState) : (s.setReceiver r).table = s.table := rfl
@[simp] theorem State.setReceiver_tablePointer (s : State) (r : ReceiverState) :
    (s.setReceiver r).tablePointer = s.tablePointer := rfl
@[simp] theorem State.setReceiver_engagement (s : State) (r : ReceiverState) :
    (s.setReceiver r).engagement = s.engagement := rfl
@[simp] theorem State.setReceiver_watch (s : State) (r : ReceiverState) : (s.setReceiver r).watch = s.watch := rfl
@[simp] theorem State.setReceiver_token (s : State) (r : ReceiverState) : (s.setReceiver r).token = s.token := rfl
@[simp] theorem State.setReceiver_lastClosed (s : State) (r : ReceiverState) :
    (s.setReceiver r).lastClosed = s.lastClosed := rfl
@[simp] theorem State.setReceiver_events (s : State) (r : ReceiverState) : (s.setReceiver r).events = s.events := rfl
@[simp] theorem State.setReceiver_clock (s : State) (r : ReceiverState) : (s.setReceiver r).clock = s.clock := rfl
@[simp] theorem State.setReceiver_owed (s : State) (r : ReceiverState) : (s.setReceiver r).owed = s.owed := rfl
@[simp] theorem State.setReceiver_freeCount (s : State) (r : ReceiverState) :
    (s.setReceiver r).freeCount = s.freeCount := rfl
@[simp] theorem State.setReceiver_pending (s : State) (r : ReceiverState) : (s.setReceiver r).pending = s.pending := rfl
@[simp] theorem State.setReceiver_segment (s : State) (r : ReceiverState) :
    (s.setReceiver r).segment = { s.segment with state := r } := rfl

/-! ### `State.resumeRun` -/

@[simp] theorem State.resumeRun_device (s : State) : s.resumeRun.device = s.device := rfl
@[simp] theorem State.resumeRun_policy (s : State) : s.resumeRun.policy = s.policy := rfl
@[simp] theorem State.resumeRun_uplinkRate (s : State) : s.resumeRun.uplinkRate = s.uplinkRate := rfl
@[simp] theorem State.resumeRun_segmentRate (s : State) : s.resumeRun.segmentRate = s.segmentRate := rfl
@[simp] theorem State.resumeRun_uplink (s : State) : s.resumeRun.uplink = s.uplink := rfl
@[simp] theorem State.resumeRun_uplinkTransmitter (s : State) :
    s.resumeRun.uplinkTransmitter = s.uplinkTransmitter := rfl
@[simp] theorem State.resumeRun_transmitter (s : State) : s.resumeRun.transmitter = s.transmitter := rfl
@[simp] theorem State.resumeRun_downQueue (s : State) : s.resumeRun.downQueue = s.downQueue := rfl
@[simp] theorem State.resumeRun_slot (s : State) : s.resumeRun.slot = s.slot := rfl
@[simp] theorem State.resumeRun_up (s : State) : s.resumeRun.up = s.up := rfl
@[simp] theorem State.resumeRun_table (s : State) : s.resumeRun.table = s.table := rfl
@[simp] theorem State.resumeRun_tablePointer (s : State) : s.resumeRun.tablePointer = s.tablePointer := rfl
@[simp] theorem State.resumeRun_engagement (s : State) : s.resumeRun.engagement = s.engagement := rfl
@[simp] theorem State.resumeRun_watch (s : State) : s.resumeRun.watch = s.watch := rfl
@[simp] theorem State.resumeRun_token (s : State) : s.resumeRun.token = s.token := rfl
@[simp] theorem State.resumeRun_lastClosed (s : State) : s.resumeRun.lastClosed = s.lastClosed := rfl
@[simp] theorem State.resumeRun_events (s : State) : s.resumeRun.events = s.events := rfl
@[simp] theorem State.resumeRun_clock (s : State) : s.resumeRun.clock = s.clock := rfl
@[simp] theorem State.resumeRun_freeCount (s : State) : s.resumeRun.freeCount = s.freeCount := rfl
@[simp] theorem State.resumeRun_pending (s : State) : s.resumeRun.pending = s.pending := rfl

/-! ### `State.startSegment` -/

@[simp] theorem State.startSegment_device (s : State) : s.startSegment.device = s.device := rfl
@[simp] theorem State.startSegment_policy (s : State) : s.startSegment.policy = s.policy := rfl
@[simp] theorem State.startSegment_uplinkRate (s : State) : s.startSegment.uplinkRate = s.uplinkRate := rfl
@[simp] theorem State.startSegment_segmentRate (s : State) : s.startSegment.segmentRate = s.segmentRate := rfl
@[simp] theorem State.startSegment_uplink (s : State) : s.startSegment.uplink = s.uplink := rfl
@[simp] theorem State.startSegment_uplinkTransmitter (s : State) :
    s.startSegment.uplinkTransmitter = s.uplinkTransmitter := rfl
@[simp] theorem State.startSegment_transmitter (s : State) : s.startSegment.transmitter = s.transmitter := rfl
@[simp] theorem State.startSegment_downQueue (s : State) : s.startSegment.downQueue = s.downQueue := rfl
@[simp] theorem State.startSegment_slot (s : State) : s.startSegment.slot = s.slot := rfl
@[simp] theorem State.startSegment_up (s : State) : s.startSegment.up = s.up := rfl
@[simp] theorem State.startSegment_table (s : State) : s.startSegment.table = s.table := rfl
@[simp] theorem State.startSegment_tablePointer (s : State) : s.startSegment.tablePointer = s.tablePointer := rfl
@[simp] theorem State.startSegment_engagement (s : State) : s.startSegment.engagement = s.engagement := rfl
@[simp] theorem State.startSegment_watch (s : State) : s.startSegment.watch = s.watch := rfl
@[simp] theorem State.startSegment_token (s : State) : s.startSegment.token = s.token := rfl
@[simp] theorem State.startSegment_lastClosed (s : State) : s.startSegment.lastClosed = s.lastClosed := rfl
@[simp] theorem State.startSegment_events (s : State) : s.startSegment.events = s.events := rfl
@[simp] theorem State.startSegment_clock (s : State) : s.startSegment.clock = s.clock := rfl
@[simp] theorem State.startSegment_freeCount (s : State) : s.startSegment.freeCount = s.freeCount := rfl
@[simp] theorem State.startSegment_pending (s : State) : s.startSegment.pending = s.pending := rfl
@[simp] theorem State.startSegment_owed (s : State) : s.startSegment.owed = s.owed := rfl
@[simp] theorem State.startSegment_segment (s : State) :
    s.startSegment.segment = { s.segment with silence := 0, midCharacter := true } := rfl

/-! ### `State.hearSegment` -/

@[simp] theorem State.hearSegment_device (s : State) : s.hearSegment.device = s.device := rfl
@[simp] theorem State.hearSegment_policy (s : State) : s.hearSegment.policy = s.policy := rfl
@[simp] theorem State.hearSegment_uplinkRate (s : State) : s.hearSegment.uplinkRate = s.uplinkRate := rfl
@[simp] theorem State.hearSegment_segmentRate (s : State) : s.hearSegment.segmentRate = s.segmentRate := rfl
@[simp] theorem State.hearSegment_uplink (s : State) : s.hearSegment.uplink = s.uplink := rfl
@[simp] theorem State.hearSegment_uplinkTransmitter (s : State) :
    s.hearSegment.uplinkTransmitter = s.uplinkTransmitter := rfl
@[simp] theorem State.hearSegment_transmitter (s : State) : s.hearSegment.transmitter = s.transmitter := rfl
@[simp] theorem State.hearSegment_downQueue (s : State) : s.hearSegment.downQueue = s.downQueue := rfl
@[simp] theorem State.hearSegment_slot (s : State) : s.hearSegment.slot = s.slot := rfl
@[simp] theorem State.hearSegment_up (s : State) : s.hearSegment.up = s.up := rfl
@[simp] theorem State.hearSegment_table (s : State) : s.hearSegment.table = s.table := rfl
@[simp] theorem State.hearSegment_tablePointer (s : State) : s.hearSegment.tablePointer = s.tablePointer := rfl
@[simp] theorem State.hearSegment_engagement (s : State) : s.hearSegment.engagement = s.engagement := rfl
@[simp] theorem State.hearSegment_watch (s : State) : s.hearSegment.watch = s.watch := rfl
@[simp] theorem State.hearSegment_token (s : State) : s.hearSegment.token = s.token := rfl
@[simp] theorem State.hearSegment_lastClosed (s : State) : s.hearSegment.lastClosed = s.lastClosed := rfl
@[simp] theorem State.hearSegment_events (s : State) : s.hearSegment.events = s.events := rfl
@[simp] theorem State.hearSegment_clock (s : State) : s.hearSegment.clock = s.clock := rfl
@[simp] theorem State.hearSegment_owed (s : State) : s.hearSegment.owed = s.owed := rfl
@[simp] theorem State.hearSegment_freeCount (s : State) : s.hearSegment.freeCount = s.freeCount := rfl
@[simp] theorem State.hearSegment_pending (s : State) : s.hearSegment.pending = s.pending := rfl
@[simp] theorem State.hearSegment_segment (s : State) :
    s.hearSegment.segment = { s.segment with silence := 0, midCharacter := false } := rfl

/-! ### `State.countRun` -/

@[simp] theorem State.countRun_device (s : State) : s.countRun.device = s.device := rfl
@[simp] theorem State.countRun_policy (s : State) : s.countRun.policy = s.policy := rfl
@[simp] theorem State.countRun_uplinkRate (s : State) : s.countRun.uplinkRate = s.uplinkRate := rfl
@[simp] theorem State.countRun_segmentRate (s : State) : s.countRun.segmentRate = s.segmentRate := rfl
@[simp] theorem State.countRun_uplink (s : State) : s.countRun.uplink = s.uplink := rfl
@[simp] theorem State.countRun_uplinkTransmitter (s : State) : s.countRun.uplinkTransmitter = s.uplinkTransmitter := rfl
@[simp] theorem State.countRun_transmitter (s : State) : s.countRun.transmitter = s.transmitter := rfl
@[simp] theorem State.countRun_downQueue (s : State) : s.countRun.downQueue = s.downQueue := rfl
@[simp] theorem State.countRun_slot (s : State) : s.countRun.slot = s.slot := rfl
@[simp] theorem State.countRun_up (s : State) : s.countRun.up = s.up := rfl
@[simp] theorem State.countRun_table (s : State) : s.countRun.table = s.table := rfl
@[simp] theorem State.countRun_tablePointer (s : State) : s.countRun.tablePointer = s.tablePointer := rfl
@[simp] theorem State.countRun_engagement (s : State) : s.countRun.engagement = s.engagement := rfl
@[simp] theorem State.countRun_watch (s : State) : s.countRun.watch = s.watch := rfl
@[simp] theorem State.countRun_token (s : State) : s.countRun.token = s.token := rfl
@[simp] theorem State.countRun_lastClosed (s : State) : s.countRun.lastClosed = s.lastClosed := rfl
@[simp] theorem State.countRun_events (s : State) : s.countRun.events = s.events := rfl
@[simp] theorem State.countRun_clock (s : State) : s.countRun.clock = s.clock := rfl
@[simp] theorem State.countRun_owed (s : State) : s.countRun.owed = s.owed := rfl
@[simp] theorem State.countRun_freeCount (s : State) : s.countRun.freeCount = s.freeCount := rfl
@[simp] theorem State.countRun_pending (s : State) : s.countRun.pending = s.pending := rfl

/-! ### `State.hardReset` -/

@[simp] theorem State.hardReset_freeCount (s : State) : s.hardReset.freeCount = s.freeCount := rfl
@[simp] theorem State.hardReset_pending (s : State) : s.hardReset.pending = s.pending := rfl
@[simp] theorem State.hardReset_device (s : State) : s.hardReset.device = State.reset.device := rfl
@[simp] theorem State.hardReset_policy (s : State) : s.hardReset.policy = State.reset.policy := rfl
@[simp] theorem State.hardReset_uplinkRate (s : State) : s.hardReset.uplinkRate = State.reset.uplinkRate := rfl
@[simp] theorem State.hardReset_segmentRate (s : State) : s.hardReset.segmentRate = State.reset.segmentRate := rfl
@[simp] theorem State.hardReset_uplink (s : State) : s.hardReset.uplink = State.reset.uplink := rfl
@[simp] theorem State.hardReset_uplinkTransmitter (s : State) :
    s.hardReset.uplinkTransmitter = State.reset.uplinkTransmitter := rfl
@[simp] theorem State.hardReset_segment (s : State) : s.hardReset.segment = State.reset.segment := rfl
@[simp] theorem State.hardReset_transmitter (s : State) : s.hardReset.transmitter = State.reset.transmitter := rfl
@[simp] theorem State.hardReset_downQueue (s : State) : s.hardReset.downQueue = State.reset.downQueue := rfl
@[simp] theorem State.hardReset_slot (s : State) : s.hardReset.slot = State.reset.slot := rfl
@[simp] theorem State.hardReset_up (s : State) : s.hardReset.up = State.reset.up := rfl
@[simp] theorem State.hardReset_table (s : State) : s.hardReset.table = State.reset.table := rfl
@[simp] theorem State.hardReset_tablePointer (s : State) : s.hardReset.tablePointer = State.reset.tablePointer := rfl
@[simp] theorem State.hardReset_engagement (s : State) : s.hardReset.engagement = State.reset.engagement := rfl
@[simp] theorem State.hardReset_watch (s : State) : s.hardReset.watch = State.reset.watch := rfl
@[simp] theorem State.hardReset_token (s : State) : s.hardReset.token = State.reset.token := rfl
@[simp] theorem State.hardReset_lastClosed (s : State) : s.hardReset.lastClosed = State.reset.lastClosed := rfl
@[simp] theorem State.hardReset_events (s : State) : s.hardReset.events = State.reset.events := rfl
@[simp] theorem State.hardReset_clock (s : State) : s.hardReset.clock = State.reset.clock := rfl
@[simp] theorem State.hardReset_owed (s : State) : s.hardReset.owed = State.reset.owed := rfl

/-! ### `State.softReset` -/

@[simp] theorem State.softReset_policy (s : State) : s.softReset.policy = s.policy := rfl
@[simp] theorem State.softReset_uplinkRate (s : State) : s.softReset.uplinkRate = s.uplinkRate := rfl
@[simp] theorem State.softReset_segmentRate (s : State) : s.softReset.segmentRate = s.segmentRate := rfl
@[simp] theorem State.softReset_clock (s : State) : s.softReset.clock = s.clock := rfl
@[simp] theorem State.softReset_owed (s : State) : s.softReset.owed = s.owed := rfl
@[simp] theorem State.softReset_freeCount (s : State) : s.softReset.freeCount = s.freeCount := rfl
@[simp] theorem State.softReset_pending (s : State) : s.softReset.pending = s.pending := rfl
@[simp] theorem State.softReset_device (s : State) : s.softReset.device = .init := rfl
@[simp] theorem State.softReset_uplink (s : State) : s.softReset.uplink = UplinkReceiver.fresh := rfl
@[simp] theorem State.softReset_uplinkTransmitter (s : State) : s.softReset.uplinkTransmitter = .idle := rfl
@[simp] theorem State.softReset_segment (s : State) : s.softReset.segment = SegmentReceiver.fresh := rfl
@[simp] theorem State.softReset_transmitter (s : State) : s.softReset.transmitter = s.transmitter.abort := rfl
@[simp] theorem State.softReset_downQueue (s : State) : s.softReset.downQueue = [] := rfl
@[simp] theorem State.softReset_slot (s : State) : s.softReset.slot = none := rfl
@[simp] theorem State.softReset_up (s : State) : s.softReset.up = UpQueue.empty := rfl
@[simp] theorem State.softReset_table (s : State) :
    s.softReset.table = s.table.mapEntries (fun e => e.restart s.policy.probeInterval) := rfl
@[simp] theorem State.softReset_tablePointer (s : State) : s.softReset.tablePointer = 0 := rfl
@[simp] theorem State.softReset_engagement (s : State) : s.softReset.engagement = none := rfl
@[simp] theorem State.softReset_watch (s : State) : s.softReset.watch = 0 := rfl
@[simp] theorem State.softReset_token (s : State) : s.softReset.token = 0 := rfl
@[simp] theorem State.softReset_lastClosed (s : State) : s.softReset.lastClosed = none := rfl
@[simp] theorem State.softReset_events (s : State) : s.softReset.events = EventQueue.empty := rfl

/-! ### `State.initialised` -/

@[simp] theorem State.initialised_policy (s : State) : s.initialised.policy = s.policy := rfl
@[simp] theorem State.initialised_uplinkRate (s : State) : s.initialised.uplinkRate = s.uplinkRate := rfl
@[simp] theorem State.initialised_segmentRate (s : State) : s.initialised.segmentRate = s.segmentRate := rfl
@[simp] theorem State.initialised_transmitter (s : State) : s.initialised.transmitter = s.transmitter := rfl
@[simp] theorem State.initialised_table (s : State) : s.initialised.table = s.table := rfl
@[simp] theorem State.initialised_tablePointer (s : State) : s.initialised.tablePointer = s.tablePointer := rfl
@[simp] theorem State.initialised_watch (s : State) : s.initialised.watch = s.watch := rfl
@[simp] theorem State.initialised_token (s : State) : s.initialised.token = s.token := rfl
@[simp] theorem State.initialised_lastClosed (s : State) : s.initialised.lastClosed = s.lastClosed := rfl
@[simp] theorem State.initialised_events (s : State) : s.initialised.events = s.events := rfl
@[simp] theorem State.initialised_clock (s : State) : s.initialised.clock = s.clock := rfl
@[simp] theorem State.initialised_owed (s : State) : s.initialised.owed = s.owed := rfl
@[simp] theorem State.initialised_freeCount (s : State) : s.initialised.freeCount = s.freeCount := rfl
@[simp] theorem State.initialised_pending (s : State) : s.initialised.pending = s.pending := rfl
@[simp] theorem State.initialised_device (s : State) : s.initialised.device = .standby := rfl
@[simp] theorem State.initialised_uplink (s : State) : s.initialised.uplink = UplinkReceiver.fresh := rfl
@[simp] theorem State.initialised_uplinkTransmitter (s : State) : s.initialised.uplinkTransmitter = .idle := rfl
@[simp] theorem State.initialised_segment (s : State) : s.initialised.segment = SegmentReceiver.fresh := rfl
@[simp] theorem State.initialised_downQueue (s : State) : s.initialised.downQueue = [] := rfl
@[simp] theorem State.initialised_slot (s : State) : s.initialised.slot = none := rfl
@[simp] theorem State.initialised_up (s : State) : s.initialised.up = UpQueue.empty := rfl
@[simp] theorem State.initialised_engagement (s : State) : s.initialised.engagement = none := rfl

/-! ### `State.reply` -/

@[simp] theorem State.reply_device (s : State) (c : Byte) (r : Reply) : (s.reply c r).device = s.device := rfl
@[simp] theorem State.reply_policy (s : State) (c : Byte) (r : Reply) : (s.reply c r).policy = s.policy := rfl
@[simp] theorem State.reply_uplinkRate (s : State) (c : Byte) (r : Reply) :
    (s.reply c r).uplinkRate = s.uplinkRate := rfl
@[simp] theorem State.reply_segmentRate (s : State) (c : Byte) (r : Reply) :
    (s.reply c r).segmentRate = s.segmentRate := rfl
@[simp] theorem State.reply_uplink (s : State) (c : Byte) (r : Reply) : (s.reply c r).uplink = s.uplink := rfl
@[simp] theorem State.reply_segment (s : State) (c : Byte) (r : Reply) : (s.reply c r).segment = s.segment := rfl
@[simp] theorem State.reply_transmitter (s : State) (c : Byte) (r : Reply) :
    (s.reply c r).transmitter = s.transmitter := rfl
@[simp] theorem State.reply_downQueue (s : State) (c : Byte) (r : Reply) : (s.reply c r).downQueue = s.downQueue := rfl
@[simp] theorem State.reply_table (s : State) (c : Byte) (r : Reply) : (s.reply c r).table = s.table := rfl
@[simp] theorem State.reply_tablePointer (s : State) (c : Byte) (r : Reply) :
    (s.reply c r).tablePointer = s.tablePointer := rfl
@[simp] theorem State.reply_engagement (s : State) (c : Byte) (r : Reply) :
    (s.reply c r).engagement = s.engagement := rfl
@[simp] theorem State.reply_watch (s : State) (c : Byte) (r : Reply) : (s.reply c r).watch = s.watch := rfl
@[simp] theorem State.reply_token (s : State) (c : Byte) (r : Reply) : (s.reply c r).token = s.token := rfl
@[simp] theorem State.reply_lastClosed (s : State) (c : Byte) (r : Reply) :
    (s.reply c r).lastClosed = s.lastClosed := rfl
@[simp] theorem State.reply_events (s : State) (c : Byte) (r : Reply) : (s.reply c r).events = s.events := rfl
@[simp] theorem State.reply_clock (s : State) (c : Byte) (r : Reply) : (s.reply c r).clock = s.clock := rfl
@[simp] theorem State.reply_owed (s : State) (c : Byte) (r : Reply) : (s.reply c r).owed = s.owed := rfl
@[simp] theorem State.reply_freeCount (s : State) (c : Byte) (r : Reply) : (s.reply c r).freeCount = s.freeCount := rfl
@[simp] theorem State.reply_pending (s : State) (c : Byte) (r : Reply) : (s.reply c r).pending = s.pending := rfl
@[simp] theorem State.reply_slot (s : State) (c : Byte) (r : Reply) : (s.reply c r).slot = none := rfl
@[simp] theorem State.reply_up (s : State) (c : Byte) (r : Reply) :
    (s.reply c r).up =
      { s.up with frames := s.up.frames ++ [r.frame s.policy.gateAddress c], managementHeld := false } := rfl

/-! ### `State.recount` -/

@[simp] theorem State.recount_device (s : State) (p : Policy) : (s.recount p).device = s.device := rfl
@[simp] theorem State.recount_policy (s : State) (p : Policy) : (s.recount p).policy = s.policy := rfl
@[simp] theorem State.recount_uplinkRate (s : State) (p : Policy) : (s.recount p).uplinkRate = s.uplinkRate := rfl
@[simp] theorem State.recount_segmentRate (s : State) (p : Policy) : (s.recount p).segmentRate = s.segmentRate := rfl
@[simp] theorem State.recount_uplink (s : State) (p : Policy) : (s.recount p).uplink = s.uplink := rfl
@[simp] theorem State.recount_uplinkTransmitter (s : State) (p : Policy) :
    (s.recount p).uplinkTransmitter = s.uplinkTransmitter := rfl
@[simp] theorem State.recount_transmitter (s : State) (p : Policy) : (s.recount p).transmitter = s.transmitter := rfl
@[simp] theorem State.recount_downQueue (s : State) (p : Policy) : (s.recount p).downQueue = s.downQueue := rfl
@[simp] theorem State.recount_slot (s : State) (p : Policy) : (s.recount p).slot = s.slot := rfl
@[simp] theorem State.recount_up (s : State) (p : Policy) : (s.recount p).up = s.up := rfl
@[simp] theorem State.recount_table (s : State) (p : Policy) : (s.recount p).table = s.table := rfl
@[simp] theorem State.recount_tablePointer (s : State) (p : Policy) :
    (s.recount p).tablePointer = s.tablePointer := rfl
@[simp] theorem State.recount_engagement (s : State) (p : Policy) : (s.recount p).engagement = s.engagement := rfl
@[simp] theorem State.recount_watch (s : State) (p : Policy) : (s.recount p).watch = s.watch := rfl
@[simp] theorem State.recount_token (s : State) (p : Policy) : (s.recount p).token = s.token := rfl
@[simp] theorem State.recount_lastClosed (s : State) (p : Policy) : (s.recount p).lastClosed = s.lastClosed := rfl
@[simp] theorem State.recount_events (s : State) (p : Policy) : (s.recount p).events = s.events := rfl
@[simp] theorem State.recount_clock (s : State) (p : Policy) : (s.recount p).clock = s.clock := rfl
@[simp] theorem State.recount_freeCount (s : State) (p : Policy) : (s.recount p).freeCount = s.freeCount := rfl
@[simp] theorem State.recount_pending (s : State) (p : Policy) : (s.recount p).pending = s.pending := rfl

/-! ### `State.replacePolicy` -/

@[simp] theorem State.replacePolicy_device (s : State) (p : Policy) : (s.replacePolicy p).device = s.device := rfl
@[simp] theorem State.replacePolicy_uplinkRate (s : State) (p : Policy) :
    (s.replacePolicy p).uplinkRate = s.uplinkRate := rfl
@[simp] theorem State.replacePolicy_uplink (s : State) (p : Policy) : (s.replacePolicy p).uplink = s.uplink := rfl
@[simp] theorem State.replacePolicy_uplinkTransmitter (s : State) (p : Policy) :
    (s.replacePolicy p).uplinkTransmitter = s.uplinkTransmitter := rfl
@[simp] theorem State.replacePolicy_segment (s : State) (p : Policy) : (s.replacePolicy p).segment = s.segment := rfl
@[simp] theorem State.replacePolicy_transmitter (s : State) (p : Policy) :
    (s.replacePolicy p).transmitter = s.transmitter := rfl
@[simp] theorem State.replacePolicy_downQueue (s : State) (p : Policy) :
    (s.replacePolicy p).downQueue = s.downQueue := rfl
@[simp] theorem State.replacePolicy_slot (s : State) (p : Policy) : (s.replacePolicy p).slot = s.slot := rfl
@[simp] theorem State.replacePolicy_up (s : State) (p : Policy) : (s.replacePolicy p).up = s.up := rfl
@[simp] theorem State.replacePolicy_tablePointer (s : State) (p : Policy) :
    (s.replacePolicy p).tablePointer = s.tablePointer := rfl
@[simp] theorem State.replacePolicy_engagement (s : State) (p : Policy) :
    (s.replacePolicy p).engagement = s.engagement := rfl
@[simp] theorem State.replacePolicy_watch (s : State) (p : Policy) : (s.replacePolicy p).watch = s.watch := rfl
@[simp] theorem State.replacePolicy_token (s : State) (p : Policy) : (s.replacePolicy p).token = s.token := rfl
@[simp] theorem State.replacePolicy_lastClosed (s : State) (p : Policy) :
    (s.replacePolicy p).lastClosed = s.lastClosed := rfl
@[simp] theorem State.replacePolicy_events (s : State) (p : Policy) : (s.replacePolicy p).events = s.events := rfl
@[simp] theorem State.replacePolicy_clock (s : State) (p : Policy) : (s.replacePolicy p).clock = s.clock := rfl
@[simp] theorem State.replacePolicy_owed (s : State) (p : Policy) : (s.replacePolicy p).owed = s.owed := rfl
@[simp] theorem State.replacePolicy_freeCount (s : State) (p : Policy) :
    (s.replacePolicy p).freeCount = s.freeCount := rfl
@[simp] theorem State.replacePolicy_pending (s : State) (p : Policy) : (s.replacePolicy p).pending = s.pending := rfl
@[simp] theorem State.replacePolicy_policy (s : State) (p : Policy) : (s.replacePolicy p).policy = p := rfl
@[simp] theorem State.replacePolicy_table (s : State) (p : Policy) :
    (s.replacePolicy p).table = s.table.mapEntries (fun e => e.underPolicy s.policy p) := rfl

end Sys2Proof.Machine
end

