-- ==== Sys2Proof/Laws/Ops.lean ====
section
/-! SUPPORT. What each shared operation leaves unchanged: one lemma per operation, a conjunction over the fields. -/

namespace Sys2Proof.Machine

/-- What `State.postIf` leaves unchanged. -/
@[simp] theorem State.postIf_frame (s : State) (k : Option EventKind) (i : Option (Fin 64)) (o : Option Byte) (d :
    Half) :
    (s.postIf k i o d).device = s.device ∧ (s.postIf k i o d).policy = s.policy ∧
      (s.postIf k i o d).uplinkRate = s.uplinkRate ∧ (s.postIf k i o d).segmentRate = s.segmentRate ∧
      (s.postIf k i o d).uplink = s.uplink ∧ (s.postIf k i o d).uplinkTransmitter = s.uplinkTransmitter ∧
      (s.postIf k i o d).segment = s.segment ∧ (s.postIf k i o d).transmitter = s.transmitter ∧
      (s.postIf k i o d).downQueue = s.downQueue ∧ (s.postIf k i o d).slot = s.slot ∧ (s.postIf k i o d).up = s.up ∧
      (s.postIf k i o d).table = s.table ∧ (s.postIf k i o d).tablePointer = s.tablePointer ∧
      (s.postIf k i o d).engagement = s.engagement ∧ (s.postIf k i o d).watch = s.watch ∧
      (s.postIf k i o d).token = s.token ∧ (s.postIf k i o d).lastClosed = s.lastClosed ∧
      (s.postIf k i o d).clock = s.clock ∧ (s.postIf k i o d).owed = s.owed ∧
      (s.postIf k i o d).freeCount = s.freeCount ∧ (s.postIf k i o d).pending = s.pending := by
  unfold State.postIf
  try dsimp only
  repeat' split
  all_goals simp

/-- What `State.releaseExchange` leaves unchanged. -/
@[simp] theorem State.releaseExchange_frame (s : State) :
    s.releaseExchange.device = s.device ∧ s.releaseExchange.policy = s.policy ∧
      s.releaseExchange.uplinkRate = s.uplinkRate ∧ s.releaseExchange.segmentRate = s.segmentRate ∧
      s.releaseExchange.uplink = s.uplink ∧ s.releaseExchange.uplinkTransmitter = s.uplinkTransmitter ∧
      s.releaseExchange.segment = s.segment ∧ s.releaseExchange.transmitter = s.transmitter ∧
      s.releaseExchange.downQueue = s.downQueue ∧ s.releaseExchange.slot = s.slot ∧
      s.releaseExchange.table = s.table ∧ s.releaseExchange.tablePointer = s.tablePointer ∧
      s.releaseExchange.engagement = s.engagement ∧ s.releaseExchange.watch = s.watch ∧
      s.releaseExchange.token = s.token ∧ s.releaseExchange.lastClosed = s.lastClosed ∧
      s.releaseExchange.events = s.events ∧ s.releaseExchange.clock = s.clock ∧ s.releaseExchange.owed = s.owed ∧
      s.releaseExchange.freeCount = s.freeCount ∧ s.releaseExchange.pending = s.pending := by
  unfold State.releaseExchange
  try dsimp only
  repeat' split
  all_goals simp

/-- What `State.modifyEntry` leaves unchanged. -/
@[simp] theorem State.modifyEntry_frame (s : State) (i : Option (Fin 64)) (f : Entry → Entry) :
    (s.modifyEntry i f).device = s.device ∧ (s.modifyEntry i f).policy = s.policy ∧
      (s.modifyEntry i f).uplinkRate = s.uplinkRate ∧ (s.modifyEntry i f).segmentRate = s.segmentRate ∧
      (s.modifyEntry i f).uplink = s.uplink ∧ (s.modifyEntry i f).uplinkTransmitter = s.uplinkTransmitter ∧
      (s.modifyEntry i f).segment = s.segment ∧ (s.modifyEntry i f).transmitter = s.transmitter ∧
      (s.modifyEntry i f).downQueue = s.downQueue ∧ (s.modifyEntry i f).slot = s.slot ∧
      (s.modifyEntry i f).up = s.up ∧ (s.modifyEntry i f).tablePointer = s.tablePointer ∧
      (s.modifyEntry i f).engagement = s.engagement ∧ (s.modifyEntry i f).watch = s.watch ∧
      (s.modifyEntry i f).token = s.token ∧ (s.modifyEntry i f).lastClosed = s.lastClosed ∧
      (s.modifyEntry i f).events = s.events ∧ (s.modifyEntry i f).clock = s.clock ∧
      (s.modifyEntry i f).owed = s.owed ∧ (s.modifyEntry i f).freeCount = s.freeCount ∧
      (s.modifyEntry i f).pending = s.pending := by
  unfold State.modifyEntry
  try dsimp only
  repeat' split
  all_goals simp

/-- What `State.applyPending` leaves unchanged. -/
@[simp] theorem State.applyPending_frame (s : State) (i : Option (Fin 64)) :
    (s.applyPending i).device = s.device ∧ (s.applyPending i).policy = s.policy ∧
      (s.applyPending i).uplinkRate = s.uplinkRate ∧ (s.applyPending i).segmentRate = s.segmentRate ∧
      (s.applyPending i).uplink = s.uplink ∧ (s.applyPending i).uplinkTransmitter = s.uplinkTransmitter ∧
      (s.applyPending i).segment = s.segment ∧ (s.applyPending i).transmitter = s.transmitter ∧
      (s.applyPending i).downQueue = s.downQueue ∧ (s.applyPending i).slot = s.slot ∧ (s.applyPending i).up = s.up ∧
      (s.applyPending i).tablePointer = s.tablePointer ∧ (s.applyPending i).engagement = s.engagement ∧
      (s.applyPending i).watch = s.watch ∧ (s.applyPending i).token = s.token ∧
      (s.applyPending i).lastClosed = s.lastClosed ∧ (s.applyPending i).clock = s.clock ∧
      (s.applyPending i).owed = s.owed ∧ (s.applyPending i).freeCount = s.freeCount ∧
      (s.applyPending i).pending = s.pending := by
  unfold State.applyPending
  try dsimp only
  repeat' split
  all_goals simp

/-- What `State.charge` leaves unchanged. -/
@[simp] theorem State.charge_frame (s : State) (g : Engagement) (c : Statistics →
    Statistics) (k : OutcomeKind) (w : Option EventKind) (d : Half) :
    (s.charge g c k w d).device = s.device ∧ (s.charge g c k w d).policy = s.policy ∧
      (s.charge g c k w d).uplinkRate = s.uplinkRate ∧ (s.charge g c k w d).segmentRate = s.segmentRate ∧
      (s.charge g c k w d).uplink = s.uplink ∧ (s.charge g c k w d).uplinkTransmitter = s.uplinkTransmitter ∧
      (s.charge g c k w d).segment = s.segment ∧ (s.charge g c k w d).transmitter = s.transmitter ∧
      (s.charge g c k w d).downQueue = s.downQueue ∧ (s.charge g c k w d).slot = s.slot ∧
      (s.charge g c k w d).up = s.up ∧ (s.charge g c k w d).tablePointer = s.tablePointer ∧
      (s.charge g c k w d).engagement = s.engagement ∧ (s.charge g c k w d).watch = s.watch ∧
      (s.charge g c k w d).token = s.token ∧ (s.charge g c k w d).lastClosed = s.lastClosed ∧
      (s.charge g c k w d).clock = s.clock ∧ (s.charge g c k w d).owed = s.owed ∧
      (s.charge g c k w d).freeCount = s.freeCount ∧ (s.charge g c k w d).pending = s.pending := by
  unfold State.charge
  try dsimp only
  repeat' split
  all_goals simp

/-- What `State.startIfReady` leaves unchanged. -/
@[simp] theorem State.startIfReady_frame (s : State) :
    s.startIfReady.device = s.device ∧ s.startIfReady.policy = s.policy ∧ s.startIfReady.uplinkRate = s.uplinkRate ∧
      s.startIfReady.segmentRate = s.segmentRate ∧ s.startIfReady.uplink = s.uplink ∧
      s.startIfReady.uplinkTransmitter = s.uplinkTransmitter ∧ s.startIfReady.downQueue = s.downQueue ∧
      s.startIfReady.slot = s.slot ∧ s.startIfReady.up = s.up ∧ s.startIfReady.table = s.table ∧
      s.startIfReady.tablePointer = s.tablePointer ∧ s.startIfReady.engagement = s.engagement ∧
      s.startIfReady.watch = s.watch ∧ s.startIfReady.token = s.token ∧ s.startIfReady.lastClosed = s.lastClosed ∧
      s.startIfReady.events = s.events ∧ s.startIfReady.clock = s.clock ∧ s.startIfReady.owed = s.owed ∧
      s.startIfReady.freeCount = s.freeCount ∧ s.startIfReady.pending = s.pending := by
  unfold State.startIfReady
  try dsimp only
  repeat' split
  all_goals simp

/-- What `State.handOver` leaves unchanged. -/
@[simp] theorem State.handOver_frame (s : State) (f : LineFrame) :
    (s.handOver f).device = s.device ∧ (s.handOver f).policy = s.policy ∧ (s.handOver f).uplinkRate = s.uplinkRate ∧
      (s.handOver f).segmentRate = s.segmentRate ∧ (s.handOver f).uplink = s.uplink ∧
      (s.handOver f).uplinkTransmitter = s.uplinkTransmitter ∧ (s.handOver f).downQueue = s.downQueue ∧
      (s.handOver f).slot = s.slot ∧ (s.handOver f).up = s.up ∧ (s.handOver f).table = s.table ∧
      (s.handOver f).tablePointer = s.tablePointer ∧ (s.handOver f).engagement = s.engagement ∧
      (s.handOver f).watch = s.watch ∧ (s.handOver f).token = s.token ∧ (s.handOver f).lastClosed = s.lastClosed ∧
      (s.handOver f).events = s.events ∧ (s.handOver f).clock = s.clock ∧ (s.handOver f).owed = s.owed ∧
      (s.handOver f).freeCount = s.freeCount ∧ (s.handOver f).pending = s.pending := by
  unfold State.handOver
  try dsimp only
  repeat' split
  all_goals simp

/-- What `State.truncate` leaves unchanged. -/
@[simp] theorem State.truncate_frame (s : State) :
    s.truncate.device = s.device ∧ s.truncate.policy = s.policy ∧ s.truncate.uplinkRate = s.uplinkRate ∧
      s.truncate.segmentRate = s.segmentRate ∧ s.truncate.uplink = s.uplink ∧
      s.truncate.uplinkTransmitter = s.uplinkTransmitter ∧ s.truncate.transmitter = s.transmitter ∧
      s.truncate.downQueue = s.downQueue ∧ s.truncate.slot = s.slot ∧ s.truncate.up = s.up ∧
      s.truncate.table = s.table ∧ s.truncate.tablePointer = s.tablePointer ∧ s.truncate.engagement = s.engagement ∧
      s.truncate.watch = s.watch ∧ s.truncate.token = s.token ∧ s.truncate.lastClosed = s.lastClosed ∧
      s.truncate.events = s.events ∧ s.truncate.clock = s.clock ∧ s.truncate.owed = s.owed ∧
      s.truncate.freeCount = s.freeCount ∧ s.truncate.pending = s.pending := by
  unfold State.truncate
  try dsimp only
  repeat' split
  all_goals simp

/-- What `State.moveToIdle` leaves unchanged. -/
@[simp] theorem State.moveToIdle_frame (s : State) :
    s.moveToIdle.policy = s.policy ∧ s.moveToIdle.uplinkRate = s.uplinkRate ∧
      s.moveToIdle.segmentRate = s.segmentRate ∧ s.moveToIdle.uplink = s.uplink ∧
      s.moveToIdle.uplinkTransmitter = s.uplinkTransmitter ∧ s.moveToIdle.segment = s.segment ∧
      s.moveToIdle.transmitter = s.transmitter ∧ s.moveToIdle.downQueue = s.downQueue ∧ s.moveToIdle.slot = s.slot ∧
      s.moveToIdle.up = s.up ∧ s.moveToIdle.tablePointer = s.tablePointer ∧ s.moveToIdle.watch = s.watch ∧
      s.moveToIdle.token = s.token ∧ s.moveToIdle.lastClosed = s.lastClosed ∧ s.moveToIdle.clock = s.clock ∧
      s.moveToIdle.owed = s.owed ∧ s.moveToIdle.freeCount = s.freeCount ∧ s.moveToIdle.pending = s.pending := by
  unfold State.moveToIdle
  try dsimp only
  repeat' split
  all_goals simp

/-- What `State.endSettling` leaves unchanged. -/
@[simp] theorem State.endSettling_frame (s : State) :
    s.endSettling.policy = s.policy ∧ s.endSettling.uplinkRate = s.uplinkRate ∧
      s.endSettling.segmentRate = s.segmentRate ∧ s.endSettling.uplink = s.uplink ∧
      s.endSettling.uplinkTransmitter = s.uplinkTransmitter ∧ s.endSettling.segment = s.segment ∧
      s.endSettling.transmitter = s.transmitter ∧ s.endSettling.downQueue = s.downQueue ∧
      s.endSettling.slot = s.slot ∧ s.endSettling.tablePointer = s.tablePointer ∧ s.endSettling.watch = s.watch ∧
      s.endSettling.token = s.token ∧ s.endSettling.clock = s.clock ∧ s.endSettling.owed = s.owed ∧
      s.endSettling.freeCount = s.freeCount ∧ s.endSettling.pending = s.pending := by
  unfold State.endSettling
  try dsimp only
  repeat' split
  all_goals simp

/-- What `State.enterSettling` leaves unchanged. -/
@[simp] theorem State.enterSettling_frame (s : State) (b : Bool) :
    (s.enterSettling b).policy = s.policy ∧ (s.enterSettling b).uplinkRate = s.uplinkRate ∧
      (s.enterSettling b).segmentRate = s.segmentRate ∧ (s.enterSettling b).uplink = s.uplink ∧
      (s.enterSettling b).uplinkTransmitter = s.uplinkTransmitter ∧ (s.enterSettling b).segment = s.segment ∧
      (s.enterSettling b).transmitter = s.transmitter ∧ (s.enterSettling b).downQueue = s.downQueue ∧
      (s.enterSettling b).slot = s.slot ∧ (s.enterSettling b).tablePointer = s.tablePointer ∧
      (s.enterSettling b).watch = s.watch ∧ (s.enterSettling b).token = s.token ∧
      (s.enterSettling b).clock = s.clock ∧ (s.enterSettling b).owed = s.owed ∧
      (s.enterSettling b).freeCount = s.freeCount ∧ (s.enterSettling b).pending = s.pending := by
  unfold State.enterSettling
  try dsimp only
  repeat' split
  all_goals simp

/-- What `State.answerIfOwed` leaves unchanged. -/
@[simp] theorem State.answerIfOwed_frame (s : State) (g : Engagement) (f : UpFrame) :
    (s.answerIfOwed g f).device = s.device ∧ (s.answerIfOwed g f).policy = s.policy ∧
      (s.answerIfOwed g f).uplinkRate = s.uplinkRate ∧ (s.answerIfOwed g f).segmentRate = s.segmentRate ∧
      (s.answerIfOwed g f).uplink = s.uplink ∧ (s.answerIfOwed g f).segment = s.segment ∧
      (s.answerIfOwed g f).transmitter = s.transmitter ∧ (s.answerIfOwed g f).downQueue = s.downQueue ∧
      (s.answerIfOwed g f).slot = s.slot ∧ (s.answerIfOwed g f).table = s.table ∧
      (s.answerIfOwed g f).tablePointer = s.tablePointer ∧ (s.answerIfOwed g f).engagement = s.engagement ∧
      (s.answerIfOwed g f).watch = s.watch ∧ (s.answerIfOwed g f).token = s.token ∧
      (s.answerIfOwed g f).lastClosed = s.lastClosed ∧ (s.answerIfOwed g f).events = s.events ∧
      (s.answerIfOwed g f).clock = s.clock ∧ (s.answerIfOwed g f).owed = s.owed ∧
      (s.answerIfOwed g f).freeCount = s.freeCount ∧ (s.answerIfOwed g f).pending = s.pending := by
  unfold State.answerIfOwed
  try dsimp only
  repeat' split
  all_goals simp

/-- What `State.closeRequest` leaves unchanged. -/
@[simp] theorem State.closeRequest_frame (s : State) (g : Engagement) (f : UpFrame) :
    (s.closeRequest g f).policy = s.policy ∧ (s.closeRequest g f).uplinkRate = s.uplinkRate ∧
      (s.closeRequest g f).segmentRate = s.segmentRate ∧ (s.closeRequest g f).uplink = s.uplink ∧
      (s.closeRequest g f).segment = s.segment ∧ (s.closeRequest g f).transmitter = s.transmitter ∧
      (s.closeRequest g f).downQueue = s.downQueue ∧ (s.closeRequest g f).slot = s.slot ∧
      (s.closeRequest g f).tablePointer = s.tablePointer ∧ (s.closeRequest g f).watch = s.watch ∧
      (s.closeRequest g f).token = s.token ∧ (s.closeRequest g f).clock = s.clock ∧
      (s.closeRequest g f).owed = s.owed ∧ (s.closeRequest g f).freeCount = s.freeCount ∧
      (s.closeRequest g f).pending = s.pending := by
  unfold State.closeRequest
  try dsimp only
  all_goals simp

/-- What `State.creditAnswer` leaves unchanged. -/
@[simp] theorem State.creditAnswer_frame (s : State) (g : Engagement) (v : Option Nat) :
    (s.creditAnswer g v).device = s.device ∧ (s.creditAnswer g v).policy = s.policy ∧
      (s.creditAnswer g v).uplinkRate = s.uplinkRate ∧ (s.creditAnswer g v).segmentRate = s.segmentRate ∧
      (s.creditAnswer g v).uplink = s.uplink ∧ (s.creditAnswer g v).uplinkTransmitter = s.uplinkTransmitter ∧
      (s.creditAnswer g v).segment = s.segment ∧ (s.creditAnswer g v).transmitter = s.transmitter ∧
      (s.creditAnswer g v).downQueue = s.downQueue ∧ (s.creditAnswer g v).slot = s.slot ∧
      (s.creditAnswer g v).up = s.up ∧ (s.creditAnswer g v).tablePointer = s.tablePointer ∧
      (s.creditAnswer g v).engagement = s.engagement ∧ (s.creditAnswer g v).watch = s.watch ∧
      (s.creditAnswer g v).token = s.token ∧ (s.creditAnswer g v).lastClosed = s.lastClosed ∧
      (s.creditAnswer g v).clock = s.clock ∧ (s.creditAnswer g v).owed = s.owed ∧
      (s.creditAnswer g v).freeCount = s.freeCount ∧ (s.creditAnswer g v).pending = s.pending := by
  unfold State.creditAnswer
  try dsimp only
  repeat' split
  all_goals simp

/-- What `State.answerLocally` leaves unchanged. -/
@[simp] theorem State.answerLocally_frame (s : State) (f : DownFrame) (r : Reason) (d : Half) :
    (s.answerLocally f r d).device = s.device ∧ (s.answerLocally f r d).policy = s.policy ∧
      (s.answerLocally f r d).uplinkRate = s.uplinkRate ∧ (s.answerLocally f r d).segmentRate = s.segmentRate ∧
      (s.answerLocally f r d).uplink = s.uplink ∧ (s.answerLocally f r d).segment = s.segment ∧
      (s.answerLocally f r d).transmitter = s.transmitter ∧ (s.answerLocally f r d).downQueue = s.downQueue ∧
      (s.answerLocally f r d).slot = s.slot ∧ (s.answerLocally f r d).table = s.table ∧
      (s.answerLocally f r d).tablePointer = s.tablePointer ∧ (s.answerLocally f r d).engagement = s.engagement ∧
      (s.answerLocally f r d).watch = s.watch ∧ (s.answerLocally f r d).token = s.token ∧
      (s.answerLocally f r d).lastClosed = s.lastClosed ∧ (s.answerLocally f r d).events = s.events ∧
      (s.answerLocally f r d).clock = s.clock ∧ (s.answerLocally f r d).owed = s.owed ∧
      (s.answerLocally f r d).freeCount = s.freeCount ∧ (s.answerLocally f r d).pending = s.pending := by
  unfold State.answerLocally
  try dsimp only
  repeat' split
  all_goals simp

/-- What `State.recordRefusal` leaves unchanged. -/
@[simp] theorem State.recordRefusal_frame (s : State) (i : Option (Fin 64)) (o : Option Byte) (r : Reason) (b : Bool) :
    (s.recordRefusal i o r b).device = s.device ∧ (s.recordRefusal i o r b).policy = s.policy ∧
      (s.recordRefusal i o r b).uplinkRate = s.uplinkRate ∧ (s.recordRefusal i o r b).segmentRate = s.segmentRate ∧
      (s.recordRefusal i o r b).uplink = s.uplink ∧
      (s.recordRefusal i o r b).uplinkTransmitter = s.uplinkTransmitter ∧
      (s.recordRefusal i o r b).segment = s.segment ∧ (s.recordRefusal i o r b).transmitter = s.transmitter ∧
      (s.recordRefusal i o r b).downQueue = s.downQueue ∧ (s.recordRefusal i o r b).slot = s.slot ∧
      (s.recordRefusal i o r b).up = s.up ∧ (s.recordRefusal i o r b).tablePointer = s.tablePointer ∧
      (s.recordRefusal i o r b).engagement = s.engagement ∧ (s.recordRefusal i o r b).watch = s.watch ∧
      (s.recordRefusal i o r b).token = s.token ∧ (s.recordRefusal i o r b).lastClosed = s.lastClosed ∧
      (s.recordRefusal i o r b).clock = s.clock ∧ (s.recordRefusal i o r b).owed = s.owed ∧
      (s.recordRefusal i o r b).freeCount = s.freeCount ∧ (s.recordRefusal i o r b).pending = s.pending := by
  unfold State.recordRefusal
  try dsimp only
  all_goals simp

/-- What `State.refuse` leaves unchanged. -/
@[simp] theorem State.refuse_frame (s : State) (f : DownFrame) (i : Option (Fin 64)) (o : Option Byte) (r : Reason) (n
    : Nat) :
    (s.refuse f i o r n).device = s.device ∧ (s.refuse f i o r n).policy = s.policy ∧
      (s.refuse f i o r n).uplinkRate = s.uplinkRate ∧ (s.refuse f i o r n).segmentRate = s.segmentRate ∧
      (s.refuse f i o r n).uplink = s.uplink ∧ (s.refuse f i o r n).segment = s.segment ∧
      (s.refuse f i o r n).transmitter = s.transmitter ∧ (s.refuse f i o r n).downQueue = s.downQueue ∧
      (s.refuse f i o r n).slot = s.slot ∧ (s.refuse f i o r n).tablePointer = s.tablePointer ∧
      (s.refuse f i o r n).engagement = s.engagement ∧ (s.refuse f i o r n).watch = s.watch ∧
      (s.refuse f i o r n).token = s.token ∧ (s.refuse f i o r n).lastClosed = s.lastClosed ∧
      (s.refuse f i o r n).clock = s.clock ∧ (s.refuse f i o r n).owed = s.owed ∧
      (s.refuse f i o r n).freeCount = s.freeCount ∧ (s.refuse f i o r n).pending = s.pending := by
  unfold State.refuse
  try dsimp only
  all_goals simp

/-- What `State.postClamp` leaves unchanged. -/
@[simp] theorem State.postClamp_frame (s : State) (f : DownFrame) (i : Fin 64) (e : Entry) :
    (s.postClamp f i e).device = s.device ∧ (s.postClamp f i e).policy = s.policy ∧
      (s.postClamp f i e).uplinkRate = s.uplinkRate ∧ (s.postClamp f i e).segmentRate = s.segmentRate ∧
      (s.postClamp f i e).uplink = s.uplink ∧ (s.postClamp f i e).uplinkTransmitter = s.uplinkTransmitter ∧
      (s.postClamp f i e).segment = s.segment ∧ (s.postClamp f i e).transmitter = s.transmitter ∧
      (s.postClamp f i e).downQueue = s.downQueue ∧ (s.postClamp f i e).slot = s.slot ∧
      (s.postClamp f i e).up = s.up ∧ (s.postClamp f i e).table = s.table ∧
      (s.postClamp f i e).tablePointer = s.tablePointer ∧ (s.postClamp f i e).engagement = s.engagement ∧
      (s.postClamp f i e).watch = s.watch ∧ (s.postClamp f i e).token = s.token ∧
      (s.postClamp f i e).lastClosed = s.lastClosed ∧ (s.postClamp f i e).clock = s.clock ∧
      (s.postClamp f i e).owed = s.owed ∧ (s.postClamp f i e).freeCount = s.freeCount ∧
      (s.postClamp f i e).pending = s.pending := by
  unfold State.postClamp
  try dsimp only
  repeat' split
  all_goals simp

/-- What `State.forward` leaves unchanged. -/
@[simp] theorem State.forward_frame (s : State) (f : DownFrame) (i : Fin 64) (e : Entry) (b : Bool) :
    (s.forward f i e b).device = s.device ∧ (s.forward f i e b).policy = s.policy ∧
      (s.forward f i e b).uplinkRate = s.uplinkRate ∧ (s.forward f i e b).segmentRate = s.segmentRate ∧
      (s.forward f i e b).uplink = s.uplink ∧ (s.forward f i e b).uplinkTransmitter = s.uplinkTransmitter ∧
      (s.forward f i e b).downQueue = s.downQueue ∧ (s.forward f i e b).slot = s.slot ∧
      (s.forward f i e b).up = s.up ∧ (s.forward f i e b).table = s.table ∧
      (s.forward f i e b).tablePointer = s.tablePointer ∧ (s.forward f i e b).watch = s.watch ∧
      (s.forward f i e b).token = s.token ∧ (s.forward f i e b).clock = s.clock ∧ (s.forward f i e b).owed = s.owed ∧
      (s.forward f i e b).freeCount = s.freeCount ∧ (s.forward f i e b).pending = s.pending := by
  unfold State.forward
  try dsimp only
  all_goals simp

/-- What `State.forwardBroadcast` leaves unchanged. -/
@[simp] theorem State.forwardBroadcast_frame (s : State) (f : DownFrame) :
    (s.forwardBroadcast f).device = s.device ∧ (s.forwardBroadcast f).policy = s.policy ∧
      (s.forwardBroadcast f).uplinkRate = s.uplinkRate ∧ (s.forwardBroadcast f).segmentRate = s.segmentRate ∧
      (s.forwardBroadcast f).uplink = s.uplink ∧ (s.forwardBroadcast f).uplinkTransmitter = s.uplinkTransmitter ∧
      (s.forwardBroadcast f).downQueue = s.downQueue ∧ (s.forwardBroadcast f).slot = s.slot ∧
      (s.forwardBroadcast f).up = s.up ∧ (s.forwardBroadcast f).table = s.table ∧
      (s.forwardBroadcast f).tablePointer = s.tablePointer ∧ (s.forwardBroadcast f).watch = s.watch ∧
      (s.forwardBroadcast f).token = s.token ∧ (s.forwardBroadcast f).events = s.events ∧
      (s.forwardBroadcast f).clock = s.clock ∧ (s.forwardBroadcast f).owed = s.owed ∧
      (s.forwardBroadcast f).freeCount = s.freeCount ∧ (s.forwardBroadcast f).pending = s.pending := by
  unfold State.forwardBroadcast
  try dsimp only
  all_goals simp

/-- What `State.admitChecked` leaves unchanged. -/
@[simp] theorem State.admitChecked_frame (s : State) (f : DownFrame) (i : Fin 64) (e : Entry) (b : Bool) :
    (s.admitChecked f i e b).device = s.device ∧ (s.admitChecked f i e b).policy = s.policy ∧
      (s.admitChecked f i e b).uplinkRate = s.uplinkRate ∧ (s.admitChecked f i e b).segmentRate = s.segmentRate ∧
      (s.admitChecked f i e b).uplink = s.uplink ∧ (s.admitChecked f i e b).downQueue = s.downQueue ∧
      (s.admitChecked f i e b).slot = s.slot ∧ (s.admitChecked f i e b).tablePointer = s.tablePointer ∧
      (s.admitChecked f i e b).watch = s.watch ∧ (s.admitChecked f i e b).token = s.token ∧
      (s.admitChecked f i e b).clock = s.clock ∧ (s.admitChecked f i e b).owed = s.owed ∧
      (s.admitChecked f i e b).freeCount = s.freeCount ∧ (s.admitChecked f i e b).pending = s.pending := by
  unfold State.admitChecked
  try dsimp only
  repeat' split
  all_goals simp

/-- What `State.admitEnforce` leaves unchanged. -/
@[simp] theorem State.admitEnforce_frame (s : State) (f : DownFrame) (i : Fin 64) (e : Entry) :
    (s.admitEnforce f i e).device = s.device ∧ (s.admitEnforce f i e).policy = s.policy ∧
      (s.admitEnforce f i e).uplinkRate = s.uplinkRate ∧ (s.admitEnforce f i e).segmentRate = s.segmentRate ∧
      (s.admitEnforce f i e).uplink = s.uplink ∧ (s.admitEnforce f i e).downQueue = s.downQueue ∧
      (s.admitEnforce f i e).slot = s.slot ∧ (s.admitEnforce f i e).tablePointer = s.tablePointer ∧
      (s.admitEnforce f i e).watch = s.watch ∧ (s.admitEnforce f i e).token = s.token ∧
      (s.admitEnforce f i e).clock = s.clock ∧ (s.admitEnforce f i e).owed = s.owed ∧
      (s.admitEnforce f i e).freeCount = s.freeCount ∧ (s.admitEnforce f i e).pending = s.pending := by
  unfold State.admitEnforce
  try dsimp only
  repeat' split
  all_goals simp

/-- What `State.admitObserve` leaves unchanged. -/
@[simp] theorem State.admitObserve_frame (s : State) (f : DownFrame) (i : Fin 64) (e : Entry) :
    (s.admitObserve f i e).device = s.device ∧ (s.admitObserve f i e).policy = s.policy ∧
      (s.admitObserve f i e).uplinkRate = s.uplinkRate ∧ (s.admitObserve f i e).segmentRate = s.segmentRate ∧
      (s.admitObserve f i e).uplink = s.uplink ∧ (s.admitObserve f i e).downQueue = s.downQueue ∧
      (s.admitObserve f i e).slot = s.slot ∧ (s.admitObserve f i e).tablePointer = s.tablePointer ∧
      (s.admitObserve f i e).watch = s.watch ∧ (s.admitObserve f i e).token = s.token ∧
      (s.admitObserve f i e).clock = s.clock ∧ (s.admitObserve f i e).owed = s.owed ∧
      (s.admitObserve f i e).freeCount = s.freeCount ∧ (s.admitObserve f i e).pending = s.pending := by
  unfold State.admitObserve
  try dsimp only
  repeat' split
  all_goals simp

/-- What `State.examine` leaves unchanged. -/
@[simp] theorem State.examine_frame (s : State) (f : DownFrame) :
    (s.examine f).device = s.device ∧ (s.examine f).policy = s.policy ∧ (s.examine f).uplinkRate = s.uplinkRate ∧
      (s.examine f).segmentRate = s.segmentRate ∧ (s.examine f).uplink = s.uplink ∧ (s.examine f).downQueue = s.downQueue ∧
      (s.examine f).slot = s.slot ∧ (s.examine f).tablePointer = s.tablePointer ∧ (s.examine f).watch = s.watch ∧
      (s.examine f).token = s.token ∧ (s.examine f).clock = s.clock ∧ (s.examine f).owed = s.owed ∧
      (s.examine f).freeCount = s.freeCount ∧ (s.examine f).pending = s.pending := by
  unfold State.examine
  try dsimp only
  repeat' split
  all_goals simp

/-- What `State.takeHead` leaves unchanged. -/
@[simp] theorem State.takeHead_frame (s : State) :
    s.takeHead.device = s.device ∧ s.takeHead.policy = s.policy ∧ s.takeHead.uplinkRate = s.uplinkRate ∧
      s.takeHead.segmentRate = s.segmentRate ∧ s.takeHead.uplink = s.uplink ∧ s.takeHead.slot = s.slot ∧
      s.takeHead.tablePointer = s.tablePointer ∧ s.takeHead.watch = s.watch ∧ s.takeHead.token = s.token ∧
      s.takeHead.clock = s.clock ∧ s.takeHead.owed = s.owed ∧ s.takeHead.freeCount = s.freeCount ∧
      s.takeHead.pending = s.pending := by
  unfold State.takeHead
  try dsimp only
  repeat' split
  all_goals simp

end Sys2Proof.Machine
end

