-- ==== Sys2Proof/Laws/Accounts.lean ====
section
/-! SUPPORT. What each shared operation does to the bounds of the queues and the accounts of the reservations. -/

namespace Sys2Proof.Machine

/-! ### The bounds alone -/

/-- The part of `Accounts` that speaks of no engagement. -/
structure Stocks (s : State) : Prop where
  down : s.downQueue.length ≤ 4
  total : s.up.total ≤ 8
  publications : s.up.publications ≤ 6
  events : s.events.records.length ≤ 32
  lost : s.events.lost ≠ 0 → s.events.records.length = 32
  managementPlace : s.up.managementHeld = true → s.slot.isSome = true

theorem Accounts.stocks {s : State} (h : Accounts s) : Stocks s :=
  ⟨h.down, h.total, h.publications, h.events, h.lost, h.managementPlace⟩

theorem Stocks.congr {s t : State} (h : Stocks s) (hd : t.downQueue = s.downQueue) (hu : t.up = s.up)
    (he : t.events = s.events) (hs : t.slot = s.slot) : Stocks t := by
  constructor
  · rw [hd]; exact h.down
  · rw [hu]; exact h.total
  · rw [hu]; exact h.publications
  · rw [he]; exact h.events
  · rw [he]; exact h.lost
  · rw [hu, hs]; exact h.managementPlace

theorem EventQueue.post_bounds (q : EventQueue) (r : EventRecord) (h : q.records.length ≤ 32)
    (hl : q.lost ≠ 0 → q.records.length = 32) :
    (q.post r).records.length ≤ 32 ∧ ((q.post r).lost ≠ 0 → (q.post r).records.length = 32) := by
  unfold EventQueue.post Config.eventCapacity
  split
  · rename_i hlt
    refine ⟨by simp; omega, fun hne => ?_⟩
    have := hl hne
    omega
  · exact ⟨h, fun _ => by show q.records.length = 32; omega⟩

theorem Stocks.post {s : State} (h : Stocks s) (k : EventKind) (i : Option (Fin 64)) (o : Option Byte) (d : Half) :
    Stocks (s.post k i o d) := by
  have hb := EventQueue.post_bounds s.events { kind := k, timestamp := s.clock, index := i, outer := o, detail := d }
    h.events h.lost
  exact ⟨h.down, h.total, h.publications, hb.1, hb.2, h.managementPlace⟩

theorem Stocks.postIf {s : State} (h : Stocks s) (k : Option EventKind) (i : Option (Fin 64)) (o : Option Byte)
    (d : Half) : Stocks (s.postIf k i o d) := by
  unfold State.postIf
  split
  · exact h
  · exact h.post _ _ _ _

theorem Stocks.setEntry {s : State} (h : Stocks s) (i : Fin 64) (e : Option Entry) : Stocks (s.setEntry i e) :=
  h.congr rfl rfl rfl rfl

theorem Stocks.modifyEntry {s : State} (h : Stocks s) (i : Option (Fin 64)) (f : Entry → Entry) :
    Stocks (s.modifyEntry i f) := h.congr (by simp) (by simp) (by simp) (by simp)

theorem Stocks.charge {s : State} (h : Stocks s) (g : Engagement) (c : Statistics → Statistics) (k : OutcomeKind)
    (w : Option EventKind) (d : Half) : Stocks (s.charge g c k w d) := by
  unfold State.charge
  split
  · exact ((h.setEntry _ _).postIf _ _ _ _).postIf _ _ _ _
  · exact h.postIf _ _ _ _

theorem Stocks.creditAnswer {s : State} (h : Stocks s) (g : Engagement) (v : Option Nat) :
    Stocks (s.creditAnswer g v) := by
  unfold State.creditAnswer
  split
  · exact (h.setEntry _ _).postIf _ _ _ _
  · exact h

theorem Stocks.applyPending {s : State} (h : Stocks s) (i : Option (Fin 64)) : Stocks (s.applyPending i) := by
  unfold State.applyPending
  split
  · split
    · exact h
    · exact (h.setEntry _ _).post _ _ _ _
    · exact (h.setEntry _ _).post _ _ _ _
  · exact h

theorem Stocks.moveToIdle {s : State} (h : Stocks s) : Stocks s.moveToIdle := by
  unfold State.moveToIdle
  split
  · exact h
  · exact Stocks.congr (Stocks.applyPending (h.congr (t := { s with engagement := none }) rfl rfl rfl rfl) _) rfl rfl
      rfl rfl

/-- An answer takes the Exchange Engine's reserved slot, so the total stands (R135). -/
theorem Stocks.admitExchange {s : State} (h : Stocks s) (f : UpFrame) (held : s.up.exchangeHeld = true)
    (hk : f.kind ≠ .publish) : Stocks (s.admitExchange f) := by
  have ht := h.total
  have hp := h.publications
  refine ⟨h.down, ?_, ?_, h.events, h.lost, h.managementPlace⟩
  · simp [UpQueue.total, UpQueue.reserved, held] at *
    omega
  · simpa [UpQueue.publications, hk] using hp

/-- Granting a reservation to a waiting Management Engine (R133). -/
theorem Stocks.grantManagement {s : State} (h : Stocks s) (asks : s.managementAsks = true) (room : s.up.total < 8) :
    Stocks s.grantManagement := by
  simp only [State.managementAsks, Bool.and_eq_true, Bool.not_eq_true'] at asks
  refine ⟨h.down, ?_, h.publications, h.events, h.lost, fun _ => asks.1.1.1⟩
  simp [UpQueue.total, UpQueue.reserved, asks.1.1.2] at *
  omega

/-- A release frees the Exchange Engine's place (R136). -/
theorem Stocks.releaseExchange {s : State} (h : Stocks s) (held : s.up.exchangeHeld = true) :
    Stocks s.releaseExchange := by
  have ht := h.total
  have hs : Stocks { s with up := { s.up with exchangeHeld := false } } := by
    refine ⟨h.down, ?_, h.publications, h.events, h.lost, h.managementPlace⟩
    simp [UpQueue.total, UpQueue.reserved, held] at *
    omega
  unfold State.releaseExchange
  dsimp only
  split
  · rename_i asks
    refine hs.grantManagement asks ?_
    simp [UpQueue.total, UpQueue.reserved, held] at *
    omega
  · exact hs

@[simp] theorem State.releaseExchange_held (s : State) : s.releaseExchange.up.exchangeHeld = false := by
  unfold State.releaseExchange
  dsimp only
  split <;> rfl

/-- A publication is admitted only while the total stays at 6 or less (R137). -/
theorem Stocks.publish {s : State} (h : Stocks s) (f : UpFrame) (fits : s.publicationFits = true) :
    Stocks (s.enqueue f) := by
  simp only [State.publicationFits, Config.publicationLimit] at fits
  refine ⟨h.down, ?_, ?_, h.events, h.lost, h.managementPlace⟩
  · simp [UpQueue.total, UpQueue.reserved] at *
    omega
  · have := List.countP_le_length (p := fun f : UpFrame => decide (f.kind = .publish)) (l := s.up.frames ++ [f])
    simp [UpQueue.publications, UpQueue.total, UpQueue.reserved] at *
    omega

/-- A reply takes the Management Engine's reserved slot (R135, R170). -/
theorem Stocks.reply {s : State} (h : Stocks s) (c : Byte) (r : Reply) (held : s.up.managementHeld = true) :
    Stocks (s.reply c r) := by
  have ht := h.total
  have hp := h.publications
  refine ⟨h.down, ?_, ?_, h.events, h.lost, by simp⟩
  · simp [UpQueue.total, UpQueue.reserved, held] at *
    omega
  · simpa [UpQueue.publications, Reply.frame] using hp

/-! ### The whole accounts -/

theorem Accounts.congr {s t : State} (h : Accounts s) (hd : t.downQueue = s.downQueue) (hu : t.up = s.up)
    (he : t.events = s.events) (hs : t.slot = s.slot) (hg : t.engagement = s.engagement) : Accounts t := by
  obtain ⟨h1, h2, h3, h4, h5, h6⟩ := h.stocks.congr hd hu he hs
  exact ⟨h1, h2, h3, h4, h5, by rw [hu]; simpa [State.placeNeeded, hg] using h.exchangePlace, h6, by
    rw [hg]; exact h.kinds⟩

/-- With the Engagement IDLE, no place is held. -/
theorem Stocks.idle {s : State} (h : Stocks s) (hg : s.engagement = none) (hu : s.up.exchangeHeld = false) :
    Accounts s :=
  ⟨h.down, h.total, h.publications, h.events, h.lost, by simp [State.placeNeeded, hg, hu], h.managementPlace, by
    simp [hg]⟩

/-- With the Engagement open. -/
theorem Stocks.open {s : State} {g : Engagement} (h : Stocks s) (hg : s.engagement = some g)
    (hu : s.up.exchangeHeld = g.needsPlace) (hk : g.stateFitsKind = true) : Accounts s :=
  ⟨h.down, h.total, h.publications, h.events, h.lost, by simp [State.placeNeeded, hg, hu], h.managementPlace, by
    simp [hg, hk]⟩

@[simp] theorem State.moveToIdle_engagement (s : State) : s.moveToIdle.engagement = none := by
  unfold State.moveToIdle
  split <;> simp [*]

/-- The move to IDLE once the place is given up. -/
theorem Stocks.toIdle {s : State} (h : Stocks s) (hu : s.up.exchangeHeld = false) : Accounts s.moveToIdle :=
  h.moveToIdle.idle (by simp) (by simpa using hu)

/-- The end of SETTLING (R102). -/
theorem Accounts.endSettling {s : State} (h : Accounts s) : Accounts s.endSettling := by
  unfold State.endSettling
  split
  · exact h
  · rename_i g hg
    have hp := h.exchangePlace
    split
    · rename_i b hb
      simp only [State.placeNeeded, hg, Engagement.needsPlace, hb] at hp
      have h1 : ∀ t : State, t = (if b = true then s.setLastClosed g else s) → Stocks t ∧
          t.up.exchangeHeld = decide (g.kind = .send) := by
        rintro t rfl
        split
        · exact ⟨h.stocks.congr rfl rfl rfl rfl, hp⟩
        · exact ⟨h.stocks, hp⟩
      obtain ⟨h2, h3⟩ := h1 _ rfl
      dsimp only
      split
      · rename_i hk
        exact (h2.releaseExchange (by simp [h3, hk])).toIdle (by simp)
      · rename_i hk
        exact h2.toIdle (by simp [h3, hk])
    · exact h

/-- The move to SETTLING (R102): a SEND keeps its place, an answered engagement has none. -/
theorem Stocks.enterSettling {s : State} {g : Engagement} (h : Stocks s) (b : Bool) (hg : s.engagement = some g)
    (hu : s.up.exchangeHeld = decide (g.kind = .send)) : Accounts (s.enterSettling b) := by
  have h1 : Accounts { s with engagement := some { g with state := .settling b } } :=
    Stocks.open (h.congr rfl rfl rfl rfl) rfl (by simpa [Engagement.needsPlace] using hu)
      (by simp [Engagement.stateFitsKind])
  unfold State.enterSettling
  rw [hg]
  dsimp only
  split
  · exact h1.endSettling
  · exact h1

/-- The close of a REQUEST with its answer (R97). -/
theorem Stocks.closeRequest {s : State} (h : Stocks s) (g : Engagement) (f : UpFrame)
    (held : s.up.exchangeHeld = true) (hk : f.kind ≠ .publish) : Accounts (s.closeRequest g f) :=
  ((h.admitExchange f held hk).congr (t := (s.admitExchange f).setLastClosed g) rfl rfl rfl rfl).toIdle rfl

/-- The answer of an engagement given up (R85, R86). -/
theorem Stocks.answerIfOwed {s : State} (h : Stocks s) (g : Engagement) (f : UpFrame)
    (held : s.up.exchangeHeld = true) (hk : f.kind ≠ .publish) :
    Stocks (s.answerIfOwed g f) ∧ (s.answerIfOwed g f).up.exchangeHeld = decide (g.kind = .send) := by
  unfold State.answerIfOwed
  split
  · rename_i hs
    exact ⟨h, by simp [held, hs]⟩
  · rename_i hs
    exact ⟨h.admitExchange f held hk, by simp [hs]⟩

end Sys2Proof.Machine
end

