-- ==== Sys2Proof/Laws/AccountsEngine.lean ====
section
/-! SUPPORT. The Exchange Engine, the Segment Port, the uplink and the Management Engine keep the accounts. -/

namespace Sys2Proof.Machine

/-- What the accounts say of an open engagement's place. -/
theorem Accounts.place {s : State} {g : Engagement} (h : Accounts s) (hg : s.engagement = some g) :
    s.up.exchangeHeld = g.needsPlace := by
  have := h.exchangePlace
  simpa [State.placeNeeded, hg] using this

theorem Accounts.post {s : State} (h : Accounts s) (k : EventKind) (i : Option (Fin 64)) (o : Option Byte) (d : Half) :
    Accounts (s.post k i o d) := by
  have hs := h.stocks.post k i o d
  exact ⟨hs.down, hs.total, hs.publications, hs.events, hs.lost, h.exchangePlace, hs.managementPlace, h.kinds⟩

theorem Accounts.charge {s : State} (h : Accounts s) (g : Engagement) (c : Statistics → Statistics) (k : OutcomeKind)
    (w : Option EventKind) (d : Half) : Accounts (s.charge g c k w d) := by
  have hs := h.stocks.charge g c k w d
  exact ⟨hs.down, hs.total, hs.publications, hs.events, hs.lost,
    by simpa [State.placeNeeded] using h.exchangePlace, hs.managementPlace, by simpa using h.kinds⟩

theorem Accounts.modifyEntry {s : State} (h : Accounts s) (i : Option (Fin 64)) (f : Entry → Entry) :
    Accounts (s.modifyEntry i f) := h.congr (by simp) (by simp) (by simp) (by simp) (by simp)

theorem Accounts.stray {s : State} (h : Accounts s) (f : Frame) : Accounts (s.stray f) := h.post _ _ _ _

theorem Accounts.judgeIdle {s : State} (h : Accounts s) (f : Frame) : Accounts (s.judgeIdle f) := by
  unfold State.judgeIdle
  split
  · exact h.stray f
  · split
    · dsimp only
      split
      · exact h.post _ _ _ _
      · exact (h.post _ _ _ _).modifyEntry _ _
    · exact h.stray f

theorem rejectionFrame_kind (r : Byte) (x : Reason) (d : Half) : (substitute r x d).kind ≠ .publish := by
  simp [substitute]

theorem responseFrame_kind (r : Byte) (p : List Byte) : (responseFrame r p).kind ≠ .publish := by simp [responseFrame]

theorem returnFrame_kind (r : Byte) (b : Bool) (n : Nat) : (returnFrame r b n).kind ≠ .publish := by
  simp [returnFrame]

/-- The first frame to end in RECEIVING closes the exchange (section 5.4). -/
theorem Accounts.judgeResponse {s : State} {g : Engagement} (h : Accounts s) (hg : s.engagement = some g)
    (hr : g.state = .receiving) (e : Ended) : Accounts (s.judgeResponse g e) := by
  have held : s.up.exchangeHeld = true := by simpa [Engagement.needsPlace, hr] using h.place hg
  unfold State.judgeResponse
  split
  · exact (h.stocks.charge _ _ _ _ _).closeRequest _ _ (by simpa using held) (rejectionFrame_kind _ _ _)
  · split
    · unfold State.closeRejected
      split
      · exact (h.stocks.charge _ _ _ _ _).closeRequest _ _ (by simpa using held) (rejectionFrame_kind _ _ _)
      · exact (h.stocks.charge _ _ _ _ _).closeRequest _ _ (by simpa using held) (responseFrame_kind _ _)
    · exact (h.stocks.creditAnswer _ _).closeRequest _ _ (by simpa using held) (responseFrame_kind _ _)

/-- A phase in HOLDING that stays in HOLDING (R113). -/
theorem Accounts.seen {s : State} {g : Engagement} (h : Accounts s) (hg : s.engagement = some g) (n : Option Half) :
    Accounts { s with engagement := some { g with seen := n } } := by
  refine Stocks.open (h.stocks.congr rfl rfl rfl rfl) rfl ?_ ?_
  · simpa [Engagement.needsPlace] using h.place hg
  · simpa [Engagement.stateFitsKind] using h.kinds g hg

theorem Accounts.offerPublication {s : State} (h : Accounts s) (g : Engagement) (f : Frame) :
    Accounts (s.offerPublication g f) := by
  unfold State.offerPublication
  split
  · exact h.post _ _ _ _
  · rename_i dest _
    split
    · rename_i fits
      have hm := h.modifyEntry g.index (fun e => { e with statistics := e.statistics.addPublished })
      have hs := hm.stocks.publish (publishFrame dest g.outer f.payload)
        (by simpa [State.publicationFits] using fits)
      refine ⟨hs.down, hs.total, hs.publications, hs.events, hs.lost, ?_, hs.managementPlace, ?_⟩
      · simpa [State.placeNeeded] using h.exchangePlace
      · simpa using h.kinds
    · exact h.post _ _ _ _

theorem Accounts.holderPublish {s : State} {g : Engagement} (h : Accounts s) (hg : s.engagement = some g) (f : Frame) :
    Accounts (s.holderPublish g f) := by
  have h1 := h.seen hg (g.seen.map satInc)
  unfold State.holderPublish
  dsimp only
  split
  · exact h1
  · split
    · exact (h1.modifyEntry _ _).offerPublication _ _
    · exact (h1.modifyEntry _ _).modifyEntry _ _

/-- A frame that ends in HOLDING (R111). -/
theorem Accounts.judgeHolding {s : State} {g : Engagement} (h : Accounts s) (hg : s.engagement = some g)
    (hr : g.state = .holding) (e : Ended) : Accounts (s.judgeHolding g e) := by
  have held : s.up.exchangeHeld = true := by simpa [Engagement.needsPlace, hr] using h.place hg
  unfold State.judgeHolding
  split
  · exact h.charge _ _ _ _ _
  · split
    · exact h.stray _
    · split
      · exact h.holderPublish hg _
      · split
        · exact ((h.stocks.creditAnswer g none).admitExchange _ (by simpa using held)
            (returnFrame_kind _ _ _)).toIdle (by simp)
        · exact h.charge _ _ _ _ _

/-- An ended frame handed to the engine (R37). -/
theorem Accounts.engineFrame {s : State} (h : Accounts s) (e : Ended) : Accounts (s.engineFrame e) := by
  unfold State.engineFrame
  split
  · exact h
  · split
    · split
      · exact h.judgeIdle _
      · exact h
    · rename_i g hg
      split
      · split
        · exact h.stray _
        · exact h
      · split
        · exact h.stray _
        · exact h
      · exact h
      · exact h.judgeResponse hg (by assumption) e
      · exact h.judgeHolding hg (by assumption) e

theorem Accounts.engineFrameIf {s : State} (h : Accounts s) (e : Option Ended) : Accounts (s.engineFrameIf e) := by
  unfold State.engineFrameIf
  split
  · exact h
  · exact h.engineFrame _

theorem Accounts.engineHead {s : State} (h : Accounts s) : Accounts s.engineHead := by
  unfold State.engineHead
  split
  · exact h
  · split
    · exact h
    · rename_i g hg
      split
      · rename_i hr
        have hp := h.place hg
        have hk := h.kinds g hg
        exact Stocks.open (h.stocks.congr rfl rfl rfl rfl) rfl (by simpa [Engagement.needsPlace, hr] using hp)
          (by simpa [Engagement.stateFitsKind, hr] using hk)
      · exact h

/-- An answered engagement moves to SETTLING. -/
theorem Stocks.answerAndSettle {s : State} {g : Engagement} (h : Stocks s) (hg : s.engagement = some g)
    (held : s.up.exchangeHeld = true) (hk : g.kind ≠ .send) (f : UpFrame) (hf : f.kind ≠ .publish) (b : Bool) :
    Accounts ((s.admitExchange f).enterSettling b) :=
  (h.admitExchange f held hf).enterSettling b (by simpa using hg) (by simp [hk])

theorem Accounts.engineMuted {s : State} (h : Accounts s) (d : Option Damage) : Accounts (s.engineMuted d) := by
  unfold State.engineMuted
  split
  · exact h
  · split
    · exact h
    · rename_i g hg
      have hp := h.place hg
      have hk := h.kinds g hg
      split
      · rename_i hr
        simp only [Engagement.needsPlace, Engagement.stateFitsKind, hr, decide_eq_true_eq] at hp hk
        exact (h.stocks.charge _ _ _ _ _).answerAndSettle (by simpa using hg) (by simpa using hp) (by simp [hk]) _
          (rejectionFrame_kind _ _ _) _
      · rename_i hr
        simp only [Engagement.needsPlace, Engagement.stateFitsKind, hr, decide_eq_true_eq] at hp hk
        exact (h.stocks.charge _ _ _ _ _).answerAndSettle (by simpa using hg) (by simpa using hp) (by simp [hk]) _
          (rejectionFrame_kind _ _ _) _
      · rename_i hr
        simp only [Engagement.needsPlace, Engagement.stateFitsKind, hr, decide_eq_true_eq] at hp hk
        exact (h.stocks.charge _ _ _ _ _).answerAndSettle (by simpa using hg) (by simpa using hp) (by simp [hk]) _
          (returnFrame_kind _ _ _) _
      · exact h
      · exact h

theorem Accounts.engineQuiet {s : State} (h : Accounts s) : Accounts s.engineQuiet := by
  unfold State.engineQuiet
  split
  · exact h
  · split
    · exact h
    · split
      · exact h.endSettling
      · exact h

theorem Accounts.engineComplete {s : State} (h : Accounts s) : Accounts s.engineComplete := by
  unfold State.engineComplete
  split
  · exact h
  · rename_i g hg
    have hp := h.place hg
    split
    · rename_i hr
      simp only [Engagement.needsPlace, hr] at hp
      split
      · rename_i hk
        exact Stocks.open (h.stocks.congr rfl rfl rfl rfl) rfl (by simpa [Engagement.needsPlace] using hp)
          (by simp [Engagement.stateFitsKind, hk])
      · exact (h.stocks.releaseExchange hp).toIdle (by simp)
      · rename_i hk
        exact Stocks.open (h.stocks.congr rfl rfl rfl rfl) rfl (by simpa [Engagement.needsPlace] using hp)
          (by simp [Engagement.stateFitsKind, hk])
    · exact h

theorem Accounts.engineEchoFault {s : State} (h : Accounts s) (n : Nat) : Accounts (s.engineEchoFault n) := by
  unfold State.engineEchoFault
  split
  · exact h
  · rename_i g hg
    have hp := h.place hg
    split
    · rename_i hr
      simp only [Engagement.needsPlace, hr] at hp
      have ha := (h.stocks.post .echoFault g.index g.eventOuter (BitVec.ofNat 16 n)).answerIfOwed g
        (substitute g.outer .lineFault (BitVec.ofNat 16 n)) hp (rejectionFrame_kind _ _ _)
      exact ha.1.enterSettling _ (by simpa using hg) ha.2
    · exact h

theorem Accounts.truncate {s : State} (h : Accounts s) : Accounts s.truncate :=
  h.congr (by simp) (by simp) (by simp) (by simp) (by simp)

theorem Accounts.expireDeadline {s : State} {g : Engagement} (h : Accounts s) (hg : s.engagement = some g)
    (hr : g.state = .awaiting) : Accounts (s.expireDeadline g) := by
  have hp := h.place hg
  simp only [Engagement.needsPlace, hr] at hp
  unfold State.expireDeadline
  exact ((h.stocks.congr (t := { s with watch := s.engagedDeadline g }) rfl rfl rfl rfl).charge _ _ _ _ _).closeRequest
    _ _ (by simpa using hp) (rejectionFrame_kind _ _ _)

theorem Accounts.expireToken {s : State} {g : Engagement} (h : Accounts s) (hg : s.engagement = some g)
    (hr : g.state = .holding) : Accounts (s.expireToken g) := by
  have hp := h.place hg
  have hk := h.kinds g hg
  simp only [Engagement.needsPlace, Engagement.stateFitsKind, hr, decide_eq_true_eq] at hp hk
  unfold State.expireToken
  exact ((((h.stocks.congr (t := { s.truncate with token := 0 }) (by simp) (by simp) (by simp) (by simp)).charge
    _ _ _ _ _).answerAndSettle (by simpa using hg) (by simpa using hp) (by simp [hk]) _ (returnFrame_kind _ _ _)
    _)).engineFrameIf _

theorem Accounts.abandonEngagement {s : State} (h : Accounts s) : Accounts s.abandonEngagement := by
  unfold State.abandonEngagement
  split
  · exact h
  · rename_i g hg
    have hp := h.place hg
    have hk := h.kinds g hg
    dsimp only
    split
    · rename_i hr
      simp only [Engagement.needsPlace, hr] at hp
      have ha := ((h.stocks.congr (t := s.orderAbort) rfl rfl rfl rfl).post .abandoned g.index g.eventOuter
        (abandonDetail g.state)).answerIfOwed g (substitute g.outer .abandoned (abandonDetail g.state)) hp
        (rejectionFrame_kind _ _ _)
      exact ha.1.enterSettling _ (by simpa using hg) ha.2
    · rename_i hr
      simp only [Engagement.needsPlace, Engagement.stateFitsKind, hr, decide_eq_true_eq] at hp hk
      exact (h.stocks.post _ _ _ _).answerAndSettle hg hp (by simp [hk]) _ (rejectionFrame_kind _ _ _) _
    · rename_i hr
      simp only [Engagement.needsPlace, Engagement.stateFitsKind, hr, decide_eq_true_eq] at hp hk
      exact ((h.truncate.stocks.post _ _ _ _).answerAndSettle (by simpa using hg) (by simpa using hp) (by simp [hk]) _
        (rejectionFrame_kind _ _ _) _).engineFrameIf _
    · rename_i hr
      simp only [Engagement.needsPlace, Engagement.stateFitsKind, hr, decide_eq_true_eq] at hp hk
      exact ((h.truncate.stocks.post _ _ _ _).answerAndSettle (by simpa using hg) (by simpa using hp) (by simp [hk]) _
        (returnFrame_kind _ _ _) _).engineFrameIf _
    · exact h

/-! ### Admission (chapter 4) -/

theorem Stocks.recordRefusal {s : State} (h : Stocks s) (i : Option (Fin 64)) (o : Option Byte) (r : Reason) (b :
    Bool) :
    Stocks (s.recordRefusal i o r b) := (h.modifyEntry _ _).post _ _ _ _

theorem Stocks.answerLocally {s : State} (h : Stocks s) (held : s.up.exchangeHeld = true) (hg : s.engagement = none)
    (f : DownFrame) (r : Reason) (d : Half) : Accounts (s.answerLocally f r d) := by
  unfold State.answerLocally
  split
  · exact (h.releaseExchange held).idle (by simpa using hg) (by simp)
  · exact (h.admitExchange _ held (rejectionFrame_kind _ _ _)).idle (by simpa using hg) (by simp)
  · exact (h.admitExchange _ held (rejectionFrame_kind _ _ _)).idle (by simpa using hg) (by simp)

theorem Stocks.refuse {s : State} (h : Stocks s) (held : s.up.exchangeHeld = true) (hg : s.engagement = none)
    (f : DownFrame) (i : Option (Fin 64)) (o : Option Byte) (r : Reason) (n : Nat) : Accounts (s.refuse f i o r n) :=
  (h.recordRefusal i o r false).answerLocally (by simpa using held) (by simpa using hg) _ _ _

theorem Stocks.postClamp {s : State} (h : Stocks s) (f : DownFrame) (i : Fin 64) (e : Entry) :
    Stocks (s.postClamp f i e) := by
  unfold State.postClamp
  split
  · split
    · exact h
    · exact h.post _ _ _ _
  · exact h

@[simp] theorem State.handOver_opened (s : State) (f : LineFrame) : (s.handOver f).engagement = s.engagement := by simp

theorem Stocks.forward {s : State} (h : Stocks s) (held : s.up.exchangeHeld = true) (f : DownFrame) (i : Fin 64)
    (e : Entry) (b : Bool) : Accounts (s.forward f i e b) := by
  refine Stocks.open (g := openedEngagement f i e b s.clock)
    ((h.postClamp f i e).congr (by simp [State.forward]) (by simp [State.forward]) (by simp [State.forward])
    (by simp [State.forward])) (by simp [State.forward]) ?_ ?_
  · simpa [State.forward, openedEngagement, Engagement.needsPlace] using held
  · simp [openedEngagement, Engagement.stateFitsKind]

theorem Stocks.forwardBroadcast {s : State} (h : Stocks s) (held : s.up.exchangeHeld = true) (f : DownFrame) :
    Accounts (s.forwardBroadcast f) := by
  refine Stocks.open (h.congr (by simp) (by simp) (by simp [State.forwardBroadcast]) (by simp))
    (by simp only [State.forwardBroadcast, State.handOver_opened]; rfl) ?_ ?_
  · simpa [Engagement.needsPlace] using held
  · simp [Engagement.stateFitsKind]

theorem Stocks.admitChecked {s : State} (h : Stocks s) (held : s.up.exchangeHeld = true) (hg : s.engagement = none)
    (f : DownFrame) (i : Fin 64) (e : Entry) (b : Bool) : Accounts (s.admitChecked f i e b) := by
  unfold State.admitChecked
  split
  · exact h.refuse held hg _ _ _ _ _
  · exact h.forward held _ _ _ _

theorem Stocks.admitEnforce {s : State} (h : Stocks s) (held : s.up.exchangeHeld = true) (hg : s.engagement = none)
    (f : DownFrame) (i : Fin 64) (e : Entry) : Accounts (s.admitEnforce f i e) := by
  unfold State.admitEnforce
  split
  · exact h.refuse held hg _ _ _ _ _
  · split
    · split
      · exact (h.modifyEntry _ _).admitChecked (by simpa using held) (by simpa using hg) _ _ _ _
      · exact (h.modifyEntry _ _).refuse (by simpa using held) (by simpa using hg) _ _ _ _ _
    · exact h.admitChecked held hg _ _ _ _

theorem Stocks.admitObserve {s : State} (h : Stocks s) (held : s.up.exchangeHeld = true) (hg : s.engagement = none)
    (f : DownFrame) (i : Fin 64) (e : Entry) : Accounts (s.admitObserve f i e) := by
  unfold State.admitObserve
  split
  · exact h.refuse held hg _ _ _ _ _
  · split
    · exact (h.recordRefusal _ _ _ _).forward (by simpa using held) _ _ _ _
    · exact h.forward held _ _ _ _

theorem Stocks.examine {s : State} (h : Stocks s) (held : s.up.exchangeHeld = true) (hg : s.engagement = none)
    (f : DownFrame) : Accounts (s.examine f) := by
  unfold State.examine
  split
  · split
    · exact h.forwardBroadcast held _
    · exact h.refuse held hg _ _ _ _ _
  · split
    · exact h.refuse held hg _ _ _ _ _
    · split
      · exact h.refuse held hg _ _ _ _ _
      · split
        · exact h.admitEnforce held hg _ _ _
        · exact h.admitObserve held hg _ _ _

/-- The take (R66, R67), with room for the reservation. -/
theorem Accounts.takeHead {s : State} (h : Accounts s) (hg : s.engagement = none) (room : s.up.total < 8) :
    Accounts s.takeHead := by
  have hp := h.exchangePlace
  simp only [State.placeNeeded, hg] at hp
  unfold State.takeHead
  split
  · exact h
  · rename_i f rest hd
    have hs : Stocks { s with downQueue := rest, up := { s.up with exchangeHeld := true } } := by
      refine ⟨?_, ?_, h.publications, h.events, h.lost, h.managementPlace⟩
      · have := h.down
        simp [hd] at this ⊢
        omega
      · simp [UpQueue.total, UpQueue.reserved, hp] at *
        omega
    dsimp only
    split
    · exact hs.answerLocally rfl hg _ _ _
    · exact hs.examine rfl hg _

/-! ### The uplink (R40, R41, R133, R134, R139) -/

theorem Accounts.joinDown {s : State} (h : Accounts s) (f : DownFrame) : Accounts (s.joinDown f) := by
  unfold State.joinDown Config.downCapacity
  split
  · rename_i hlt
    exact ⟨by simp; omega, h.total, h.publications, h.events, h.lost, h.exchangePlace, h.managementPlace, h.kinds⟩
  · exact h.post _ _ _ _

theorem Accounts.grantManagement {s : State} (h : Accounts s) (asks : s.managementAsks = true)
    (room : s.up.total < 8) : Accounts s.grantManagement := by
  have hs := h.stocks.grantManagement asks room
  exact ⟨hs.down, hs.total, hs.publications, hs.events, hs.lost, h.exchangePlace, hs.managementPlace, h.kinds⟩

theorem Accounts.placeRequest {s : State} (h : Accounts s) (p : List Byte) : Accounts (s.placeRequest p) := by
  unfold State.placeRequest
  split
  · exact h.post _ _ _ _
  · have h1 : Accounts { s with slot := some p } :=
      ⟨h.down, h.total, h.publications, h.events, h.lost, h.exchangePlace, fun _ => rfl, h.kinds⟩
    dsimp only
    split
    · rename_i hc
      simp only [Bool.and_eq_true, decide_eq_true_eq] at hc
      exact h1.grantManagement hc.1 hc.2
    · exact h1

theorem Accounts.judgeUplink {s : State} (h : Accounts s) (e : Ended) : Accounts (s.judgeUplink e) := by
  unfold State.judgeUplink State.uplinkWrongKind
  repeat' split
  all_goals first
    | exact h.post _ _ _ _
    | exact h.placeRequest _
    | exact h.joinDown _

/-- A reply is admitted (R170). -/
theorem Accounts.reply {s : State} (h : Accounts s) (c : Byte) (r : Reply) (held : s.up.managementHeld = true) :
    Accounts (s.reply c r) := by
  have hs := h.stocks.reply c r held
  exact ⟨hs.down, hs.total, hs.publications, hs.events, hs.lost, h.exchangePlace, hs.managementPlace, h.kinds⟩

end Sys2Proof.Machine
end

