-- ==== Sys2Proof/Laws/AccountsCommands.lean ====
section
/-! SUPPORT. The ports, the timers and the management acts keep the accounts of the queues and reservations. -/

namespace Sys2Proof.Machine

theorem Accounts.startIfReady {s} (h : Accounts s) : Accounts s.startIfReady :=
  h.congr (by simp) (by simp) (by simp) (by simp) (by simp)

theorem Accounts.takeJabber {s} (h : Accounts s) : Accounts s.takeJabber := by
  unfold State.takeJabber State.enterMuted
  split
  · apply Accounts.engineMuted; apply Accounts.post; exact h.congr rfl rfl rfl rfl rfl
  · exact h

theorem Accounts.takeQuiet {s} (h : Accounts s) : Accounts s.takeQuiet := by
  unfold State.takeQuiet State.becomeQuiet
  split
  · exact Accounts.startIfReady (Accounts.engineQuiet (h.congr rfl rfl rfl rfl rfl))
  · exact h

theorem Accounts.completeTransmission {s} (h : Accounts s) : Accounts s.completeTransmission :=
  Accounts.engineComplete (h.congr rfl rfl rfl rfl rfl)

theorem Accounts.faultEcho {s} (h : Accounts s) (n) : Accounts (s.faultEcho n) :=
  by unfold State.faultEcho; apply Accounts.engineEchoFault; exact h.congr rfl rfl rfl rfl rfl

theorem Accounts.takeMissingEcho {s} (h : Accounts s) : Accounts s.takeMissingEcho := by
  unfold State.takeMissingEcho
  split
  · exact h.faultEcho _
  · exact h

theorem Accounts.compareEcho {s} (h : Accounts s) (c) : Accounts (s.compareEcho c) := by
  unfold State.compareEcho
  repeat' split
  · exact h.completeTransmission
  · exact h.congr rfl rfl rfl rfl rfl
  · exact h.faultEcho _
  · exact h

theorem Accounts.hearSegment {s} (h : Accounts s) : Accounts s.hearSegment := h.congr rfl rfl rfl rfl rfl

theorem Accounts.takeAbortEnd {s} (h : Accounts s) : Accounts s.takeAbortEnd := by
  unfold State.takeAbortEnd
  split
  · exact Accounts.startIfReady (h.congr rfl rfl rfl rfl rfl)
  · exact h

theorem Accounts.setUplinkFrame {s} (h : Accounts s) (f) : Accounts (s.setUplinkFrame f) := h.congr rfl rfl rfl rfl rfl

theorem Accounts.fragmentUplink {s} (h : Accounts s) : Accounts s.fragmentUplink := by
  unfold State.fragmentUplink
  split
  · exact h
  · exact (h.setUplinkFrame _).judgeUplink _

theorem Accounts.takeUplink {s} (h : Accounts s) (c) : Accounts (s.takeUplink c) := by
  unfold State.takeUplink State.frameUplink
  have h1 : Accounts s.hearUplink := h.congr rfl rfl rfl rfl rfl
  repeat' split
  · exact h1.fragmentUplink.setUplinkFrame _
  · exact h1
  · exact h1.setUplinkFrame _
  · exact (h1.setUplinkFrame _).judgeUplink _
  · exact h

theorem Accounts.setReceiver {s} (h : Accounts s) (f) : Accounts (s.setReceiver f) := h.congr rfl rfl rfl rfl rfl

theorem Accounts.fragmentSegment {s} (h : Accounts s) : Accounts s.fragmentSegment := by
  unfold State.fragmentSegment
  split
  · exact (h.setReceiver _).engineFrame _
  · exact h

theorem Accounts.takeSegment {s} (h : Accounts s) (c) : Accounts (s.takeSegment c) := by
  unfold State.takeSegment State.openSegment State.bodySegment
  have h2 : Accounts s.resumeRun.hearSegment := h.congr rfl rfl rfl rfl rfl
  have h1 : Accounts s.resumeRun.hearSegment.countRun := h2.congr rfl rfl rfl rfl rfl
  split
  · dsimp only
    repeat' split
    · exact h2.compareEcho _
    · exact h2
    · exact h2
    · exact (h1.fragmentSegment.setReceiver _).engineHead
    · exact h1.setReceiver _
    · exact (h1.setReceiver _).engineFrame _
    · exact h1
  · exact h

theorem Accounts.takeUplinkFragment {s} (h : Accounts s) : Accounts s.takeUplinkFragment := by
  unfold State.takeUplinkFragment
  split
  · exact Accounts.fragmentUplink (h.congr rfl rfl rfl rfl rfl)
  · exact h

theorem Accounts.takeSegmentFragment {s} (h : Accounts s) : Accounts s.takeSegmentFragment := by
  unfold State.takeSegmentFragment
  split
  · exact Accounts.fragmentSegment (h.congr rfl rfl rfl rfl rfl)
  · exact h

theorem Accounts.takeDeadline {s} (h : Accounts s) : Accounts s.takeDeadline := by
  unfold State.takeDeadline State.deadlineDue
  split
  · exact h
  · rename_i g hd
    split at hd
    · simp at hd
    · split at hd
      · rename_i g' hg hc
        simp at hd; subst hd
        exact h.expireDeadline hg hc.1
      · simp at hd

theorem Accounts.takeToken {s} (h : Accounts s) : Accounts s.takeToken := by
  unfold State.takeToken State.tokenDue
  split
  · exact h
  · rename_i g hd
    split at hd
    · simp at hd
    · split at hd
      · rename_i g' hg hc
        simp at hd; subst hd
        exact h.expireToken hg hc.1
      · simp at hd

theorem Accounts.takeThreshold {s} (h : Accounts s) (t) : Accounts (s.takeThreshold t) := by
  cases t
  · exact h.takeDeadline
  · exact h.takeToken
  · exact h.takeJabber
  · exact h.takeQuiet
  · exact h.takeSegmentFragment
  · exact h.takeUplinkFragment
  · exact h.takeMissingEcho
  · exact h.takeAbortEnd

theorem Accounts.settleOwed (n : Nat) : ∀ {s : State}, Accounts s → Accounts (State.settleOwed n s) := by
  induction n with
  | zero => intro s h; exact h.congr rfl rfl rfl rfl rfl
  | succ n ih =>
    intro s h
    unfold State.settleOwed
    split
    · exact h
    · apply Accounts.takeThreshold; exact h.congr rfl rfl rfl rfl rfl
    · apply ih; apply Accounts.takeThreshold; exact h.congr rfl rfl rfl rfl rfl

theorem Accounts.hardReset {s} : Accounts (State.hardReset s) := by
  constructor <;> simp [State.hardReset, State.reset, UpQueue.total, UpQueue.reserved, UpQueue.publications,
      State.placeNeeded]

theorem Accounts.initialised {s} (h : Accounts s) : Accounts (State.initialised s) := by
  constructor <;> simp [State.initialised, UpQueue.empty, UpQueue.total, UpQueue.reserved, UpQueue.publications,
      State.placeNeeded]
  · exact h.events
  · exact h.lost

theorem Accounts.softReset {s} : Accounts (State.softReset s) := by
  constructor <;> simp [State.softReset, UpQueue.empty, EventQueue.empty, UpQueue.total, UpQueue.reserved,
      UpQueue.publications, State.placeNeeded]

theorem Accounts.completeUplink {s} (h : Accounts s) : Accounts s.completeUplink := by
  unfold State.completeUplink
  split
  · exact h.congr rfl rfl rfl rfl rfl
  · rename_i f rest hf
    split
    · exact Accounts.softReset
    · have ht := h.total
      have hpub := h.publications
      have h1 : Accounts { s with
          up := { s.up with frames := rest }
          uplinkTransmitter := .idle
          uplinkRate := rateAfter s.uplinkRate f.mark } := by
        refine ⟨h.down, ?_, ?_, h.events, h.lost, h.exchangePlace, h.managementPlace, h.kinds⟩
        · simp [UpQueue.total, UpQueue.reserved, hf] at *; omega
        · simp [UpQueue.publications, hf, List.countP_cons] at *; omega
      have room : rest.length + s.up.reserved < 8 := by
        simp [UpQueue.total, hf] at ht; omega
      refine Accounts.congr (s := State.grantFreed _ _ _) ?_ rfl rfl rfl rfl rfl
      unfold State.grantFreed
      have hx : s.exchangeWaits = true → s.engagement = none := by
        simp [State.exchangeWaits, State.exchangeAsks]
        intros; assumption
      have hm : s.managementAsks = true → State.managementAsks { s with
          up := { s.up with frames := rest }
          uplinkTransmitter := .idle
          uplinkRate := rateAfter s.uplinkRate f.mark } = true := by
        simp [State.managementAsks, State.softResetUnderWay, hf, State.works]
        intro a b _ c d; exact ⟨⟨⟨a, b⟩, c⟩, d⟩
      split
      · exact h1
      · exact h1.takeHead (hx (by assumption)) room
      · exact h1.grantManagement (hm (by assumption)) room
      · split
        · refine Accounts.takeHead ?_ (hx (by assumption)) room
          exact ⟨h1.down, h1.total, h1.publications, h1.events, h1.lost, h1.exchangePlace, h1.managementPlace, h1.kinds⟩
        · refine Accounts.grantManagement ?_ (hm (by assumption)) room
          exact ⟨h1.down, h1.total, h1.publications, h1.events, h1.lost, h1.exchangePlace, h1.managementPlace, h1.kinds⟩

theorem Accounts.carryOut {s} (h : Accounts s) (code : Byte) (len) (act)
   (ha : ∀ args, s.managementReady = true → Accounts (act s args).1 ∧
       (act s args).1.up.managementHeld = s.up.managementHeld) :
   Accounts (s.carryOut code len act) := by
  unfold State.carryOut
  split
  · exact h
  · rename_i args hr
    have hrd : s.managementReady = true := by
      unfold State.requestFor at hr
      split at hr
      · assumption
      · simp at hr
    have held : s.up.managementHeld = true := by
      simp [State.managementReady] at hrd; exact hrd.1.2
    dsimp only
    split
    · exact (ha args hrd).1.reply _ _ (by rw [(ha args hrd).2]; exact held)
    · exact h.reply _ _ held

theorem Accounts.same {s : State} (h : Accounts s) (code len) (act : State → List Byte → State × Reply)
   (ha : ∀ args, (act s args).1 = s) : Accounts (s.carryOut code len act) :=
  h.carryOut code len act (fun args _ => by rw [ha]; exact ⟨h, rfl⟩)

theorem Accounts.postReleased (l) : ∀ {s : State}, Accounts s → Accounts (s.postReleased l) := by
  induction l with
  | nil => intro s h; exact h
  | cons a l ih => intro s h; exact ih (h.post _ _ _ _)

theorem postReleased_held (l) : ∀ (s : State), (s.postReleased l).up = s.up := by
  induction l with
  | nil => intro s; rfl
  | cons a l ih => intro s; exact (ih _)

theorem standby_engineMuted (s : State) (d) (h : s.device = .standby) : s.engineMuted d = s := by
  simp [State.engineMuted, h]

theorem Accounts.enterMuted {s : State} (h : Accounts s) : Accounts s.enterMuted := by
  unfold State.enterMuted
  apply Accounts.engineMuted; apply Accounts.post; exact h.congr rfl rfl rfl rfl rfl

theorem enterMuted_up (s : State) (h : s.device = .standby) : s.enterMuted.up = s.up ∧
    s.enterMuted.device = .standby := by
  unfold State.enterMuted
  dsimp only
  rw [standby_engineMuted _ _ (by simpa using h)]
  simpa using h

theorem Accounts.applyPolicy {s : State} (h : Accounts s) (p) (hs : s.device = .standby) : Accounts (s.applyPolicy p)
    ∧ (s.applyPolicy p).up = s.up := by
  have h1 : Accounts ((s.recount p).replacePolicy p).requiet := by
    apply Accounts.congr (s := s) h <;> (simp only [State.requiet]; split <;> rfl)
  have hu : ((s.recount p).replacePolicy p).requiet.up = s.up := by unfold State.requiet; split <;> rfl
  have hd : ((s.recount p).replacePolicy p).requiet.device = .standby := by unfold State.requiet; split <;> simpa using hs
  unfold State.applyPolicy State.postWritten
  split
  · split
    · exact ⟨h1.enterMuted, by rw [(enterMuted_up _ hd).1, hu]⟩
    · rename_i x y
      dsimp only
      have h2 : Accounts { ((s.recount p).replacePolicy p).requiet with freeCount := ((s.recount p).replacePolicy p).requiet.freeCount + 1 }
          := h1.congr rfl rfl rfl rfl rfl
      split
      · refine ⟨Accounts.postReleased _ h2.enterMuted, ?_⟩
        rw [postReleased_held, (enterMuted_up _ (by exact hd)).1]; exact hu
      · refine ⟨Accounts.enterMuted (Accounts.postReleased _ h2), ?_⟩
        rw [(enterMuted_up _ ?_).1, postReleased_held]; exact hu
        have : ∀ l (s : State), (s.postReleased l).device = s.device := by
          intro l; induction l with
          | nil => intro s; rfl
          | cons a l ih => intro s; exact ih _
        rw [this]; exact hd
  · exact ⟨Accounts.postReleased _ h1, by rw [postReleased_held]; exact hu⟩

theorem releaseExchange_mheld (s : State) (h : s.up.managementHeld = true) : s.releaseExchange.up.managementHeld =
    true := by
  unfold State.releaseExchange; dsimp only; split <;> simp [h]

theorem endSettling_mheld (s : State) (h : s.up.managementHeld = true) : s.endSettling.up.managementHeld = true := by
  unfold State.endSettling; dsimp only; repeat' split
  all_goals simp [h, releaseExchange_mheld]

theorem enterSettling_mheld (s : State) (b) (h : s.up.managementHeld = true) : (s.enterSettling b).up.managementHeld =
    true := by
  unfold State.enterSettling; dsimp only; repeat' split
  all_goals first | exact h | exact endSettling_mheld _ h

theorem answerIfOwed_mheld (s : State) (g f) (h : s.up.managementHeld = true) : (s.answerIfOwed g f).up.managementHeld
    = true := by
  unfold State.answerIfOwed; split <;> simp [h]

theorem engineFrameIf_settled (s : State) (r : Option Ended) (hr : ∀ e, r = some e → ∃ d, e = .damaged d)
    (hs : ∀ g, s.engagement = some g → ∃ b, g.state = .settling b) : s.engineFrameIf r = s := by
  unfold State.engineFrameIf
  split
  · rfl
  · obtain ⟨d, rfl⟩ := hr _ rfl
    unfold State.engineFrame
    split
    · rfl
    · split
      · rfl
      · rename_i g hg
        obtain ⟨b, hb⟩ := hs g hg
        simp [hb]

theorem enterSettling_settled (s : State) (b) : ∀ g, (s.enterSettling b).engagement = some g →
    ∃ b, g.state = .settling b := by
  unfold State.enterSettling State.endSettling
  intro g
  dsimp only
  split
  · simp_all
  · split
    · simp
    · simp; rintro rfl; cases b <;> simp

theorem truncatedReport_damaged (s : State) : ∀ e, s.truncatedReport = some e → ∃ d, e = .damaged d := by
  unfold State.truncatedReport
  split <;> simp

theorem abandon_mheld (s : State) (h : s.up.managementHeld = true) : s.abandonEngagement.up.managementHeld = true := by
  unfold State.abandonEngagement
  dsimp only
  split
  · exact h
  · split
    · exact enterSettling_mheld _ _ (answerIfOwed_mheld _ _ _ h)
    · exact enterSettling_mheld _ _ (by simpa using h)
    · rw [engineFrameIf_settled _ _ (truncatedReport_damaged _) (enterSettling_settled _ _)]
      exact enterSettling_mheld _ _ (by simpa using h)
    · rw [engineFrameIf_settled _ _ (truncatedReport_damaged _) (enterSettling_settled _ _)]
      exact enterSettling_mheld _ _ (by simpa using h)
    · exact h

end Sys2Proof.Machine
end

