-- ==== Sys2Proof/Laws/Bytes.lean ====
section
/-! SUPPORT. Numbers and the characters they are sent as. -/

namespace Sys2Proof.Machine

/-- A two-character number is its two characters. -/
@[simp] theorem half_high_low (h : Half) : half (highByte h) (lowByte h) = h := by
  unfold half highByte lowByte
  rw [BitVec.extractLsb'_append_extractLsb'_eq_extractLsb' (by rfl)]
  simp

theorem half_bytes_toNat (h : Half) : h.toNat = 256 * (highByte h).toNat + (lowByte h).toNat := by
  simp [highByte, lowByte]
  omega

/-- A four-character number is its four characters. -/
@[simp] theorem word_bytes (w : Word) :
    word (w.extractLsb' 24 8) (w.extractLsb' 16 8) (w.extractLsb' 8 8) (w.extractLsb' 0 8) = w := by
  have hh : (w.extractLsb' 24 8 ++ w.extractLsb' 16 8 : BitVec 16) = w.extractLsb' 16 16 :=
    BitVec.extractLsb'_append_extractLsb'_eq_extractLsb' (by rfl)
  have hl : (w.extractLsb' 8 8 ++ w.extractLsb' 0 8 : BitVec 16) = w.extractLsb' 0 16 :=
    BitVec.extractLsb'_append_extractLsb'_eq_extractLsb' (by rfl)
  have hw : (w.extractLsb' 16 16 ++ w.extractLsb' 0 16 : BitVec 32) = w.extractLsb' 0 32 :=
    BitVec.extractLsb'_append_extractLsb'_eq_extractLsb' (by rfl)
  unfold word half
  rw [hh, hl, hw]
  simp

theorem word_bytes_toNat (w : Word) :
    w.toNat = 16777216 * (w.extractLsb' 24 8).toNat + 65536 * (w.extractLsb' 16 8).toNat +
      256 * (w.extractLsb' 8 8).toNat + (w.extractLsb' 0 8).toNat := by
  simp
  omega

/-- The four characters of a Line Clock value, read as SET_TIME reads them, are the value. -/
theorem word_getD (w : Word) :
    word ((wordBytes w).getD 0 0) ((wordBytes w).getD 1 0) ((wordBytes w).getD 2 0) ((wordBytes w).getD 3 0) = w :=
  word_bytes w

end Sys2Proof.Machine
end

