-- ==== Sys2Proof/Laws/Kept.lean ====
section
/-! SUPPORT. No operation below a command touches the queue of pending commands or the steps owed. -/

namespace Sys2Proof.Machine

@[simp] theorem State.releaseExchange_owed (s : State) : s.releaseExchange.owed = s.owed := by
  unfold State.releaseExchange
  dsimp only
  (repeat' split) <;> simp
@[simp] theorem State.releaseExchange_pending (s : State) : s.releaseExchange.pending = s.pending := by
  unfold State.releaseExchange
  dsimp only
  (repeat' split) <;> simp

@[simp] theorem State.modifyEntry_owed (s : State) (i : Option (Fin 64)) (f : Entry → Entry) :
    (s.modifyEntry i f).owed = s.owed := by
  unfold State.modifyEntry
  (repeat' split) <;> simp
@[simp] theorem State.modifyEntry_pending (s : State) (i : Option (Fin 64)) (f : Entry → Entry) :
    (s.modifyEntry i f).pending = s.pending := by
  unfold State.modifyEntry
  (repeat' split) <;> simp

@[simp] theorem State.applyPending_owed (s : State) (i : Option (Fin 64)) : (s.applyPending i).owed = s.owed := by
  unfold State.applyPending
  (repeat' split) <;> simp
@[simp] theorem State.applyPending_pending (s : State) (i : Option (Fin 64)) :
    (s.applyPending i).pending = s.pending := by
  unfold State.applyPending
  (repeat' split) <;> simp

@[simp] theorem State.postIf_owed (s : State) (k : Option EventKind) (i : Option (Fin 64)) (o : Option Byte) (d :
    Half) :
    (s.postIf k i o d).owed = s.owed := by
  unfold State.postIf
  (repeat' split) <;> simp
@[simp] theorem State.postIf_pending (s : State) (k : Option EventKind) (i : Option (Fin 64)) (o : Option Byte) (d :
    Half) :
    (s.postIf k i o d).pending = s.pending := by
  unfold State.postIf
  (repeat' split) <;> simp

@[simp] theorem State.charge_owed (s : State) (g : Engagement) (c : Statistics →
    Statistics) (k : OutcomeKind) (e : Option EventKind) (d : Half) :
    (s.charge g c k e d).owed = s.owed := by
  unfold State.charge
  (repeat' split) <;> simp
@[simp] theorem State.charge_pending (s : State) (g : Engagement) (c : Statistics →
    Statistics) (k : OutcomeKind) (e : Option EventKind) (d : Half) :
    (s.charge g c k e d).pending = s.pending := by
  unfold State.charge
  (repeat' split) <;> simp

@[simp] theorem State.startIfReady_owed (s : State) : s.startIfReady.owed = s.owed := by
  unfold State.startIfReady
  (repeat' split) <;> simp
@[simp] theorem State.startIfReady_pending (s : State) : s.startIfReady.pending = s.pending := by
  unfold State.startIfReady
  (repeat' split) <;> simp

@[simp] theorem State.handOver_owed (s : State) (f : LineFrame) : (s.handOver f).owed = s.owed := by
  unfold State.handOver
  (repeat' split) <;> simp
@[simp] theorem State.handOver_pending (s : State) (f : LineFrame) : (s.handOver f).pending = s.pending := by
  unfold State.handOver
  (repeat' split) <;> simp

@[simp] theorem State.moveToIdle_owed (s : State) : s.moveToIdle.owed = s.owed := by
  unfold State.moveToIdle
  (repeat' split) <;> simp
@[simp] theorem State.moveToIdle_pending (s : State) : s.moveToIdle.pending = s.pending := by
  unfold State.moveToIdle
  (repeat' split) <;> simp

@[simp] theorem State.endSettling_owed (s : State) : s.endSettling.owed = s.owed := by
  unfold State.endSettling
  (repeat' split) <;> simp
@[simp] theorem State.endSettling_pending (s : State) : s.endSettling.pending = s.pending := by
  unfold State.endSettling
  (repeat' split) <;> simp

@[simp] theorem State.enterSettling_owed (s : State) (b : Bool) : (s.enterSettling b).owed = s.owed := by
  unfold State.enterSettling
  dsimp only
  (repeat' split) <;> simp
@[simp] theorem State.enterSettling_pending (s : State) (b : Bool) : (s.enterSettling b).pending = s.pending := by
  unfold State.enterSettling
  dsimp only
  (repeat' split) <;> simp

@[simp] theorem State.answerIfOwed_owed (s : State) (g : Engagement) (f : UpFrame) :
    (s.answerIfOwed g f).owed = s.owed := by
  unfold State.answerIfOwed
  (repeat' split) <;> simp
@[simp] theorem State.answerIfOwed_pending (s : State) (g : Engagement) (f : UpFrame) :
    (s.answerIfOwed g f).pending = s.pending := by
  unfold State.answerIfOwed
  (repeat' split) <;> simp

@[simp] theorem State.closeRequest_owed (s : State) (g : Engagement) (f : UpFrame) :
    (s.closeRequest g f).owed = s.owed := by
  unfold State.closeRequest
  simp
@[simp] theorem State.closeRequest_pending (s : State) (g : Engagement) (f : UpFrame) :
    (s.closeRequest g f).pending = s.pending := by
  unfold State.closeRequest
  simp

@[simp] theorem State.stray_owed (s : State) (f : Frame) : (s.stray f).owed = s.owed := by
  unfold State.stray
  simp
@[simp] theorem State.stray_pending (s : State) (f : Frame) : (s.stray f).pending = s.pending := by
  unfold State.stray
  simp

@[simp] theorem State.judgeIdle_owed (s : State) (f : Frame) : (s.judgeIdle f).owed = s.owed := by
  unfold State.judgeIdle
  (repeat' split) <;> simp
@[simp] theorem State.judgeIdle_pending (s : State) (f : Frame) : (s.judgeIdle f).pending = s.pending := by
  unfold State.judgeIdle
  (repeat' split) <;> simp

@[simp] theorem State.closeDamaged_owed (s : State) (g : Engagement) (d : Damage) :
    (s.closeDamaged g d).owed = s.owed := by
  unfold State.closeDamaged
  simp
@[simp] theorem State.closeDamaged_pending (s : State) (g : Engagement) (d : Damage) :
    (s.closeDamaged g d).pending = s.pending := by
  unfold State.closeDamaged
  simp

@[simp] theorem State.closeRejected_owed (s : State) (g : Engagement) (r : Reason) (f : Frame) :
    (s.closeRejected g r f).owed = s.owed := by
  unfold State.closeRejected
  (repeat' split) <;> simp
@[simp] theorem State.closeRejected_pending (s : State) (g : Engagement) (r : Reason) (f : Frame) :
    (s.closeRejected g r f).pending = s.pending := by
  unfold State.closeRejected
  (repeat' split) <;> simp

@[simp] theorem State.creditAnswer_owed (s : State) (g : Engagement) (t : Option Nat) :
    (s.creditAnswer g t).owed = s.owed := by
  unfold State.creditAnswer
  (repeat' split) <;> simp
@[simp] theorem State.creditAnswer_pending (s : State) (g : Engagement) (t : Option Nat) :
    (s.creditAnswer g t).pending = s.pending := by
  unfold State.creditAnswer
  (repeat' split) <;> simp

@[simp] theorem State.closeAnswered_owed (s : State) (g : Engagement) (f : Frame) :
    (s.closeAnswered g f).owed = s.owed := by
  unfold State.closeAnswered
  simp
@[simp] theorem State.closeAnswered_pending (s : State) (g : Engagement) (f : Frame) :
    (s.closeAnswered g f).pending = s.pending := by
  unfold State.closeAnswered
  simp

@[simp] theorem State.judgeResponse_owed (s : State) (g : Engagement) (e : Ended) :
    (s.judgeResponse g e).owed = s.owed := by
  unfold State.judgeResponse
  (repeat' split) <;> simp
@[simp] theorem State.judgeResponse_pending (s : State) (g : Engagement) (e : Ended) :
    (s.judgeResponse g e).pending = s.pending := by
  unfold State.judgeResponse
  (repeat' split) <;> simp

@[simp] theorem State.holderDamaged_owed (s : State) (g : Engagement) (d : Damage) :
    (s.holderDamaged g d).owed = s.owed := by
  unfold State.holderDamaged
  simp
@[simp] theorem State.holderDamaged_pending (s : State) (g : Engagement) (d : Damage) :
    (s.holderDamaged g d).pending = s.pending := by
  unfold State.holderDamaged
  simp

@[simp] theorem State.holderWrongKind_owed (s : State) (g : Engagement) : (s.holderWrongKind g).owed = s.owed := by
  unfold State.holderWrongKind
  simp
@[simp] theorem State.holderWrongKind_pending (s : State) (g : Engagement) :
    (s.holderWrongKind g).pending = s.pending := by
  unfold State.holderWrongKind
  simp

@[simp] theorem State.offerPublication_owed (s : State) (g : Engagement) (f : Frame) :
    (s.offerPublication g f).owed = s.owed := by
  unfold State.offerPublication
  (repeat' split) <;> simp
@[simp] theorem State.offerPublication_pending (s : State) (g : Engagement) (f : Frame) :
    (s.offerPublication g f).pending = s.pending := by
  unfold State.offerPublication
  (repeat' split) <;> simp

@[simp] theorem State.holderPublish_owed (s : State) (g : Engagement) (f : Frame) :
    (s.holderPublish g f).owed = s.owed := by
  unfold State.holderPublish
  dsimp only
  (repeat' split) <;> simp
@[simp] theorem State.holderPublish_pending (s : State) (g : Engagement) (f : Frame) :
    (s.holderPublish g f).pending = s.pending := by
  unfold State.holderPublish
  dsimp only
  (repeat' split) <;> simp

@[simp] theorem State.holderReturn_owed (s : State) (g : Engagement) : (s.holderReturn g).owed = s.owed := by
  unfold State.holderReturn
  simp
@[simp] theorem State.holderReturn_pending (s : State) (g : Engagement) : (s.holderReturn g).pending = s.pending := by
  unfold State.holderReturn
  simp

@[simp] theorem State.judgeHolding_owed (s : State) (g : Engagement) (e : Ended) :
    (s.judgeHolding g e).owed = s.owed := by
  unfold State.judgeHolding
  (repeat' split) <;> simp
@[simp] theorem State.judgeHolding_pending (s : State) (g : Engagement) (e : Ended) :
    (s.judgeHolding g e).pending = s.pending := by
  unfold State.judgeHolding
  (repeat' split) <;> simp

@[simp] theorem State.engineFrame_owed (s : State) (e : Ended) : (s.engineFrame e).owed = s.owed := by
  unfold State.engineFrame
  (repeat' split) <;> simp
@[simp] theorem State.engineFrame_pending (s : State) (e : Ended) : (s.engineFrame e).pending = s.pending := by
  unfold State.engineFrame
  (repeat' split) <;> simp

@[simp] theorem State.engineHead_owed (s : State) : s.engineHead.owed = s.owed := by
  unfold State.engineHead
  (repeat' split) <;> simp
@[simp] theorem State.engineHead_pending (s : State) : s.engineHead.pending = s.pending := by
  unfold State.engineHead
  (repeat' split) <;> simp

@[simp] theorem State.closeJabber_owed (s : State) (g : Engagement) (d : Option Damage) :
    (s.closeJabber g d).owed = s.owed := by
  unfold State.closeJabber
  simp
@[simp] theorem State.closeJabber_pending (s : State) (g : Engagement) (d : Option Damage) :
    (s.closeJabber g d).pending = s.pending := by
  unfold State.closeJabber
  simp

@[simp] theorem State.reclaimJabber_owed (s : State) (g : Engagement) : (s.reclaimJabber g).owed = s.owed := by
  unfold State.reclaimJabber
  simp
@[simp] theorem State.reclaimJabber_pending (s : State) (g : Engagement) : (s.reclaimJabber g).pending = s.pending := by
  unfold State.reclaimJabber
  simp

@[simp] theorem State.engineMuted_owed (s : State) (d : Option Damage) : (s.engineMuted d).owed = s.owed := by
  unfold State.engineMuted
  (repeat' split) <;> simp
@[simp] theorem State.engineMuted_pending (s : State) (d : Option Damage) : (s.engineMuted d).pending = s.pending := by
  unfold State.engineMuted
  (repeat' split) <;> simp

@[simp] theorem State.engineQuiet_owed (s : State) : s.engineQuiet.owed = s.owed := by
  unfold State.engineQuiet
  (repeat' split) <;> simp
@[simp] theorem State.engineQuiet_pending (s : State) : s.engineQuiet.pending = s.pending := by
  unfold State.engineQuiet
  (repeat' split) <;> simp

@[simp] theorem State.engineComplete_owed (s : State) : s.engineComplete.owed = s.owed := by
  unfold State.engineComplete
  (repeat' split) <;> simp
@[simp] theorem State.engineComplete_pending (s : State) : s.engineComplete.pending = s.pending := by
  unfold State.engineComplete
  (repeat' split) <;> simp

@[simp] theorem State.engineEchoFault_owed (s : State) (n : Nat) : (s.engineEchoFault n).owed = s.owed := by
  unfold State.engineEchoFault
  (repeat' split) <;> simp
@[simp] theorem State.engineEchoFault_pending (s : State) (n : Nat) : (s.engineEchoFault n).pending = s.pending := by
  unfold State.engineEchoFault
  (repeat' split) <;> simp

@[simp] theorem State.truncate_owed (s : State) : s.truncate.owed = s.owed := by
  unfold State.truncate
  (repeat' split) <;> simp
@[simp] theorem State.truncate_pending (s : State) : s.truncate.pending = s.pending := by
  unfold State.truncate
  (repeat' split) <;> simp

@[simp] theorem State.engineFrameIf_owed (s : State) (e : Option Ended) : (s.engineFrameIf e).owed = s.owed := by
  unfold State.engineFrameIf
  (repeat' split) <;> simp
@[simp] theorem State.engineFrameIf_pending (s : State) (e : Option Ended) :
    (s.engineFrameIf e).pending = s.pending := by
  unfold State.engineFrameIf
  (repeat' split) <;> simp

@[simp] theorem State.expireDeadline_owed (s : State) (g : Engagement) : (s.expireDeadline g).owed = s.owed := by
  unfold State.expireDeadline
  simp
@[simp] theorem State.expireDeadline_pending (s : State) (g : Engagement) :
    (s.expireDeadline g).pending = s.pending := by
  unfold State.expireDeadline
  simp

@[simp] theorem State.expireToken_owed (s : State) (g : Engagement) : (s.expireToken g).owed = s.owed := by
  unfold State.expireToken
  simp
@[simp] theorem State.expireToken_pending (s : State) (g : Engagement) : (s.expireToken g).pending = s.pending := by
  unfold State.expireToken
  simp

@[simp] theorem State.abandonEngagement_owed (s : State) : s.abandonEngagement.owed = s.owed := by
  unfold State.abandonEngagement
  (repeat' split) <;> simp
@[simp] theorem State.abandonEngagement_pending (s : State) : s.abandonEngagement.pending = s.pending := by
  unfold State.abandonEngagement
  (repeat' split) <;> simp

@[simp] theorem State.enterMuted_owed (s : State) : s.enterMuted.owed = s.owed := by
  unfold State.enterMuted
  simp
@[simp] theorem State.enterMuted_pending (s : State) : s.enterMuted.pending = s.pending := by
  unfold State.enterMuted
  simp

@[simp] theorem State.takeJabber_owed (s : State) : s.takeJabber.owed = s.owed := by
  unfold State.takeJabber
  (repeat' split) <;> simp
@[simp] theorem State.takeJabber_pending (s : State) : s.takeJabber.pending = s.pending := by
  unfold State.takeJabber
  (repeat' split) <;> simp

@[simp] theorem State.becomeQuiet_owed (s : State) : s.becomeQuiet.owed = s.owed := by
  unfold State.becomeQuiet
  simp
@[simp] theorem State.becomeQuiet_pending (s : State) : s.becomeQuiet.pending = s.pending := by
  unfold State.becomeQuiet
  simp

@[simp] theorem State.takeQuiet_owed (s : State) : s.takeQuiet.owed = s.owed := by
  unfold State.takeQuiet
  (repeat' split) <;> simp
@[simp] theorem State.takeQuiet_pending (s : State) : s.takeQuiet.pending = s.pending := by
  unfold State.takeQuiet
  (repeat' split) <;> simp

@[simp] theorem State.completeTransmission_owed (s : State) : s.completeTransmission.owed = s.owed := by
  unfold State.completeTransmission
  simp
@[simp] theorem State.completeTransmission_pending (s : State) : s.completeTransmission.pending = s.pending := by
  unfold State.completeTransmission
  simp

@[simp] theorem State.faultEcho_owed (s : State) (n : Nat) : (s.faultEcho n).owed = s.owed := by
  unfold State.faultEcho
  simp
@[simp] theorem State.faultEcho_pending (s : State) (n : Nat) : (s.faultEcho n).pending = s.pending := by
  unfold State.faultEcho
  simp

@[simp] theorem State.takeMissingEcho_owed (s : State) : s.takeMissingEcho.owed = s.owed := by
  unfold State.takeMissingEcho
  (repeat' split) <;> simp
@[simp] theorem State.takeMissingEcho_pending (s : State) : s.takeMissingEcho.pending = s.pending := by
  unfold State.takeMissingEcho
  (repeat' split) <;> simp

@[simp] theorem State.compareEcho_owed (s : State) (c : LineChar) : (s.compareEcho c).owed = s.owed := by
  unfold State.compareEcho
  (repeat' split) <;> simp
@[simp] theorem State.compareEcho_pending (s : State) (c : LineChar) : (s.compareEcho c).pending = s.pending := by
  unfold State.compareEcho
  (repeat' split) <;> simp

@[simp] theorem State.takeAbortEnd_owed (s : State) : s.takeAbortEnd.owed = s.owed := by
  unfold State.takeAbortEnd
  (repeat' split) <;> simp
@[simp] theorem State.takeAbortEnd_pending (s : State) : s.takeAbortEnd.pending = s.pending := by
  unfold State.takeAbortEnd
  (repeat' split) <;> simp

@[simp] theorem State.uplinkWrongKind_owed (s : State) (f : Frame) : (s.uplinkWrongKind f).owed = s.owed := by
  unfold State.uplinkWrongKind
  simp
@[simp] theorem State.uplinkWrongKind_pending (s : State) (f : Frame) : (s.uplinkWrongKind f).pending = s.pending := by
  unfold State.uplinkWrongKind
  simp

@[simp] theorem State.placeRequest_owed (s : State) (l : List Byte) : (s.placeRequest l).owed = s.owed := by
  unfold State.placeRequest
  dsimp only
  (repeat' split) <;> simp
@[simp] theorem State.placeRequest_pending (s : State) (l : List Byte) : (s.placeRequest l).pending = s.pending := by
  unfold State.placeRequest
  dsimp only
  (repeat' split) <;> simp

@[simp] theorem State.joinDown_owed (s : State) (f : DownFrame) : (s.joinDown f).owed = s.owed := by
  unfold State.joinDown
  (repeat' split) <;> simp
@[simp] theorem State.joinDown_pending (s : State) (f : DownFrame) : (s.joinDown f).pending = s.pending := by
  unfold State.joinDown
  (repeat' split) <;> simp

@[simp] theorem State.judgeUplink_owed (s : State) (e : Ended) : (s.judgeUplink e).owed = s.owed := by
  unfold State.judgeUplink
  (repeat' split) <;> simp
@[simp] theorem State.judgeUplink_pending (s : State) (e : Ended) : (s.judgeUplink e).pending = s.pending := by
  unfold State.judgeUplink
  (repeat' split) <;> simp

@[simp] theorem State.fragmentUplink_owed (s : State) : s.fragmentUplink.owed = s.owed := by
  unfold State.fragmentUplink
  (repeat' split) <;> simp
@[simp] theorem State.fragmentUplink_pending (s : State) : s.fragmentUplink.pending = s.pending := by
  unfold State.fragmentUplink
  (repeat' split) <;> simp

@[simp] theorem State.frameUplink_owed (s : State) (c : LineChar) : (s.frameUplink c).owed = s.owed := by
  unfold State.frameUplink
  (repeat' split) <;> simp
@[simp] theorem State.frameUplink_pending (s : State) (c : LineChar) : (s.frameUplink c).pending = s.pending := by
  unfold State.frameUplink
  (repeat' split) <;> simp

@[simp] theorem State.takeUplink_owed (s : State) (c : LineChar) : (s.takeUplink c).owed = s.owed := by
  unfold State.takeUplink
  (repeat' split) <;> simp
@[simp] theorem State.takeUplink_pending (s : State) (c : LineChar) : (s.takeUplink c).pending = s.pending := by
  unfold State.takeUplink
  (repeat' split) <;> simp

@[simp] theorem State.fragmentSegment_owed (s : State) : s.fragmentSegment.owed = s.owed := by
  unfold State.fragmentSegment
  (repeat' split) <;> simp
@[simp] theorem State.fragmentSegment_pending (s : State) : s.fragmentSegment.pending = s.pending := by
  unfold State.fragmentSegment
  (repeat' split) <;> simp

@[simp] theorem State.openSegment_owed (s : State) (b : Byte) : (s.openSegment b).owed = s.owed := by
  unfold State.openSegment
  simp
@[simp] theorem State.openSegment_pending (s : State) (b : Byte) : (s.openSegment b).pending = s.pending := by
  unfold State.openSegment
  simp

@[simp] theorem State.bodySegment_owed (s : State) (b : Byte) : (s.bodySegment b).owed = s.owed := by
  unfold State.bodySegment
  (repeat' split) <;> simp
@[simp] theorem State.bodySegment_pending (s : State) (b : Byte) : (s.bodySegment b).pending = s.pending := by
  unfold State.bodySegment
  (repeat' split) <;> simp

/-- A character on the segment owes the step of JABBER where it finds a silence of two owed at the jabber limit. -/
@[simp] theorem State.takeSegment_owed (s : State) (c : LineChar) :
    (s.takeSegment c).owed = if s.works = true then s.resumeRun.owed else s.owed := by
  unfold State.takeSegment
  split
  · dsimp only
    (repeat' split) <;> simp
  · rfl
@[simp] theorem State.takeSegment_pending (s : State) (c : LineChar) : (s.takeSegment c).pending = s.pending := by
  unfold State.takeSegment
  dsimp only
  (repeat' split) <;> simp

/-- A start bit on the segment owes the step of JABBER where it finds a silence of two owed at the jabber limit. -/
@[simp] theorem State.startBit_owed (s : State) (p : Port) :
    (s.startBit p).owed = if s.works = true ∧ p = .segment then s.resumeRun.owed else s.owed := by
  unfold State.startBit
  by_cases h : s.works = true <;> cases p <;> simp [h]
@[simp] theorem State.startBit_pending (s : State) (p : Port) : (s.startBit p).pending = s.pending := by
  unfold State.startBit
  (repeat' split) <;> simp

@[simp] theorem State.takeUplinkFragment_owed (s : State) : s.takeUplinkFragment.owed = s.owed := by
  unfold State.takeUplinkFragment
  (repeat' split) <;> simp
@[simp] theorem State.takeUplinkFragment_pending (s : State) : s.takeUplinkFragment.pending = s.pending := by
  unfold State.takeUplinkFragment
  (repeat' split) <;> simp

@[simp] theorem State.takeSegmentFragment_owed (s : State) : s.takeSegmentFragment.owed = s.owed := by
  unfold State.takeSegmentFragment
  (repeat' split) <;> simp
@[simp] theorem State.takeSegmentFragment_pending (s : State) : s.takeSegmentFragment.pending = s.pending := by
  unfold State.takeSegmentFragment
  (repeat' split) <;> simp

@[simp] theorem State.answerLocally_owed (s : State) (f : DownFrame) (r : Reason) (d : Half) :
    (s.answerLocally f r d).owed = s.owed := by
  unfold State.answerLocally
  (repeat' split) <;> simp
@[simp] theorem State.answerLocally_pending (s : State) (f : DownFrame) (r : Reason) (d : Half) :
    (s.answerLocally f r d).pending = s.pending := by
  unfold State.answerLocally
  (repeat' split) <;> simp

@[simp] theorem State.recordRefusal_owed (s : State) (i : Option (Fin 64)) (o : Option Byte) (r : Reason) (b : Bool) :
    (s.recordRefusal i o r b).owed = s.owed := by
  unfold State.recordRefusal
  simp
@[simp] theorem State.recordRefusal_pending (s : State) (i : Option (Fin 64)) (o : Option Byte) (r : Reason) (b :
    Bool) :
    (s.recordRefusal i o r b).pending = s.pending := by
  unfold State.recordRefusal
  simp

@[simp] theorem State.refuse_owed (s : State) (f : DownFrame) (i : Option (Fin 64)) (o : Option Byte) (r : Reason) (n
    : Nat) :
    (s.refuse f i o r n).owed = s.owed := by
  unfold State.refuse
  simp
@[simp] theorem State.refuse_pending (s : State) (f : DownFrame) (i : Option (Fin 64)) (o : Option Byte) (r : Reason)
    (n : Nat) :
    (s.refuse f i o r n).pending = s.pending := by
  unfold State.refuse
  simp

@[simp] theorem State.postClamp_owed (s : State) (f : DownFrame) (i : Fin 64) (e : Entry) :
    (s.postClamp f i e).owed = s.owed := by
  unfold State.postClamp
  (repeat' split) <;> simp
@[simp] theorem State.postClamp_pending (s : State) (f : DownFrame) (i : Fin 64) (e : Entry) :
    (s.postClamp f i e).pending = s.pending := by
  unfold State.postClamp
  (repeat' split) <;> simp

@[simp] theorem State.forward_owed (s : State) (f : DownFrame) (i : Fin 64) (e : Entry) (p : Bool) :
    (s.forward f i e p).owed = s.owed := by
  unfold State.forward
  simp
@[simp] theorem State.forward_pending (s : State) (f : DownFrame) (i : Fin 64) (e : Entry) (p : Bool) :
    (s.forward f i e p).pending = s.pending := by
  unfold State.forward
  simp

@[simp] theorem State.forwardBroadcast_owed (s : State) (f : DownFrame) : (s.forwardBroadcast f).owed = s.owed := by
  unfold State.forwardBroadcast
  simp
@[simp] theorem State.forwardBroadcast_pending (s : State) (f : DownFrame) :
    (s.forwardBroadcast f).pending = s.pending := by
  unfold State.forwardBroadcast
  simp

@[simp] theorem State.admitChecked_owed (s : State) (f : DownFrame) (i : Fin 64) (e : Entry) (p : Bool) :
    (s.admitChecked f i e p).owed = s.owed := by
  unfold State.admitChecked
  (repeat' split) <;> simp
@[simp] theorem State.admitChecked_pending (s : State) (f : DownFrame) (i : Fin 64) (e : Entry) (p : Bool) :
    (s.admitChecked f i e p).pending = s.pending := by
  unfold State.admitChecked
  (repeat' split) <;> simp

@[simp] theorem State.admitEnforce_owed (s : State) (f : DownFrame) (i : Fin 64) (e : Entry) :
    (s.admitEnforce f i e).owed = s.owed := by
  unfold State.admitEnforce
  (repeat' split) <;> simp
@[simp] theorem State.admitEnforce_pending (s : State) (f : DownFrame) (i : Fin 64) (e : Entry) :
    (s.admitEnforce f i e).pending = s.pending := by
  unfold State.admitEnforce
  (repeat' split) <;> simp

@[simp] theorem State.admitObserve_owed (s : State) (f : DownFrame) (i : Fin 64) (e : Entry) :
    (s.admitObserve f i e).owed = s.owed := by
  unfold State.admitObserve
  (repeat' split) <;> simp
@[simp] theorem State.admitObserve_pending (s : State) (f : DownFrame) (i : Fin 64) (e : Entry) :
    (s.admitObserve f i e).pending = s.pending := by
  unfold State.admitObserve
  (repeat' split) <;> simp

@[simp] theorem State.examine_owed (s : State) (f : DownFrame) : (s.examine f).owed = s.owed := by
  unfold State.examine
  (repeat' split) <;> simp
@[simp] theorem State.examine_pending (s : State) (f : DownFrame) : (s.examine f).pending = s.pending := by
  unfold State.examine
  (repeat' split) <;> simp

@[simp] theorem State.takeHead_owed (s : State) : s.takeHead.owed = s.owed := by
  unfold State.takeHead
  dsimp only
  (repeat' split) <;> simp
@[simp] theorem State.takeHead_pending (s : State) : s.takeHead.pending = s.pending := by
  unfold State.takeHead
  dsimp only
  (repeat' split) <;> simp

@[simp] theorem State.grantFreed_owed (s : State) (a b : Bool) : (s.grantFreed a b).owed = s.owed := by
  unfold State.grantFreed
  (repeat' split) <;> simp
@[simp] theorem State.grantFreed_pending (s : State) (a b : Bool) : (s.grantFreed a b).pending = s.pending := by
  unfold State.grantFreed
  (repeat' split) <;> simp

@[simp] theorem State.completeUplink_owed (s : State) : s.completeUplink.owed = s.owed := by
  unfold State.completeUplink
  (repeat' split) <;> simp
@[simp] theorem State.completeUplink_pending (s : State) : s.completeUplink.pending = s.pending := by
  unfold State.completeUplink
  (repeat' split) <;> simp

@[simp] theorem State.takeDeadline_owed (s : State) : s.takeDeadline.owed = s.owed := by
  unfold State.takeDeadline
  (repeat' split) <;> simp
@[simp] theorem State.takeDeadline_pending (s : State) : s.takeDeadline.pending = s.pending := by
  unfold State.takeDeadline
  (repeat' split) <;> simp

@[simp] theorem State.takeToken_owed (s : State) : s.takeToken.owed = s.owed := by
  unfold State.takeToken
  (repeat' split) <;> simp
@[simp] theorem State.takeToken_pending (s : State) : s.takeToken.pending = s.pending := by
  unfold State.takeToken
  (repeat' split) <;> simp

@[simp] theorem State.takeThreshold_owed (s : State) (t : Threshold) : (s.takeThreshold t).owed = s.owed := by
  unfold State.takeThreshold
  (repeat' split) <;> simp
@[simp] theorem State.takeThreshold_pending (s : State) (t : Threshold) : (s.takeThreshold t).pending = s.pending := by
  unfold State.takeThreshold
  (repeat' split) <;> simp

@[simp] theorem State.requiet_owed (s : State) : s.requiet.owed = s.owed := by
  unfold State.requiet
  (repeat' split) <;> simp
@[simp] theorem State.requiet_pending (s : State) : s.requiet.pending = s.pending := by
  unfold State.requiet
  (repeat' split) <;> simp

@[simp] theorem State.postReleased_owed (s : State) (l : List (Fin 64 × Byte)) : (s.postReleased l).owed = s.owed := by
  unfold State.postReleased
  induction l generalizing s with
  | nil => rfl
  | cons a l ih => exact (ih _).trans (State.post_owed _ _ _ _ _)
@[simp] theorem State.postReleased_pending (s : State) (l : List (Fin 64 × Byte)) :
    (s.postReleased l).pending = s.pending := by
  unfold State.postReleased
  induction l generalizing s with
  | nil => rfl
  | cons a l ih => exact (ih _).trans (State.post_pending _ _ _ _ _)

@[simp] theorem State.postWritten_owed (s : State) (l : List (Fin 64 × Byte)) : (s.postWritten l).owed = s.owed := by
  unfold State.postWritten
  (repeat' split) <;> simp
@[simp] theorem State.postWritten_pending (s : State) (l : List (Fin 64 × Byte)) :
    (s.postWritten l).pending = s.pending := by
  unfold State.postWritten
  (repeat' split) <;> simp

/-- A policy write keeps every step owed but those whose threshold it moves. -/
@[simp] theorem State.applyPolicy_owed (s : State) (p : Policy) : (s.applyPolicy p).owed = (s.recount p).owed := by
  unfold State.applyPolicy
  simp
@[simp] theorem State.applyPolicy_pending (s : State) (p : Policy) : (s.applyPolicy p).pending = s.pending := by
  unfold State.applyPolicy
  simp

@[simp] theorem State.holdUpdate_owed (s : State) (i : Fin 64) (u : PendingUpdate) :
    (s.holdUpdate i u).owed = s.owed := by
  unfold State.holdUpdate
  simp
@[simp] theorem State.holdUpdate_pending (s : State) (i : Fin 64) (u : PendingUpdate) :
    (s.holdUpdate i u).pending = s.pending := by
  unfold State.holdUpdate
  simp

end Sys2Proof.Machine
end

