-- ==== Sys2Proof/Laws/Lines.lean ====
section
/-! SUPPORT. What each shared operation does to the agreement of the device state, the Engagement and the two
transmitters. -/

namespace Sys2Proof.Machine

/-! ### The uplink transmitter and the head of the Up Queue -/

/-- The transmitter sends the head, with either attention flag. -/
theorem sendsHead_wire (f : UpFrame) (rest : List UpFrame) (a : Bool) (n : Nat) :
    sendsHead (.sending (f.wire a) n) (f :: rest) := by
  cases a
  · exact Or.inr rfl
  · exact Or.inl rfl

/-- A frame joins the tail while the ports work: the transmitter still sends the head (R42). -/
theorem State.enqueue_head {s : State} (hw : s.works = true)
    (h : s.uplinkTransmitter = .idle ∨ sendsHead s.uplinkTransmitter s.up.frames) (f : UpFrame) :
    sendsHead (s.enqueue f).uplinkTransmitter (s.enqueue f).up.frames := by
  simp only [State.enqueue_up]
  have hw' : s.device.works = true := hw
  unfold State.enqueue State.beginUplink
  cases hu : s.uplinkTransmitter with
  | idle =>
    cases hf : s.up.frames with
    | nil => simpa [State.works, hw'] using sendsHead_wire f [] _ 0
    | cons x l => simpa [State.works, hw'] using sendsHead_wire x (l ++ [f]) _ 0
  | sending w n =>
    cases hf : s.up.frames with
    | nil => simp [hu, hf, sendsHead] at h
    | cons x l => simpa [hu, hf, sendsHead] using h

/-- An idle transmitter begins the head of a queue that lost its head (R42, R139). -/
theorem State.beginUplink_head {s : State} (hw : s.works = true)
    (h : s.uplinkTransmitter = .idle ∨ sendsHead s.uplinkTransmitter s.up.frames) :
    sendsHead s.beginUplink.uplinkTransmitter s.beginUplink.up.frames := by
  unfold State.beginUplink sendsHead at *
  simp only [hw, if_true]
  cases ha : s.attn <;> cases hu : s.uplinkTransmitter <;> cases hf : s.up.frames <;> simp_all

/-! ### States in which the ports work and the segment transmitter has no frame -/

/-- What an act of the Exchange Engine may rely on once the frame of the engagement has left the transmitter. -/
structure Working (s : State) : Prop where
  works : s.works = true
  head : sendsHead s.uplinkTransmitter s.up.frames
  noFrame : s.transmitter.holdsFrame = false

theorem Working.congr {s t : State} (h : Working s) (hd : t.device = s.device)
    (hu : t.uplinkTransmitter = s.uplinkTransmitter) (hf : t.up.frames = s.up.frames)
    (ht : t.transmitter = s.transmitter) : Working t := by
  refine ⟨?_, ?_, ?_⟩
  · simpa [State.works, hd] using h.works
  · rw [hu, hf]; exact h.head
  · rw [ht]; exact h.noFrame

theorem Working.post {s : State} (h : Working s) (k : EventKind) (i : Option (Fin 64)) (o : Option Byte) (d : Half) :
    Working (s.post k i o d) := h.congr rfl rfl rfl rfl

theorem Working.admitExchange {s : State} (h : Working s) (f : UpFrame) : Working (s.admitExchange f) :=
  ⟨h.works, State.enqueue_head (s := { s with up := { s.up with exchangeHeld := false } }) h.works (.inr h.head) f,
      h.noFrame⟩

theorem Working.answerIfOwed {s : State} (h : Working s) (g : Engagement) (f : UpFrame) :
    Working (s.answerIfOwed g f) := by
  unfold State.answerIfOwed
  split
  · exact h
  · exact h.admitExchange f

@[simp] theorem State.releaseExchange_frames (s : State) : s.releaseExchange.up.frames = s.up.frames := by
  unfold State.releaseExchange
  dsimp only
  split <;> rfl

/-- The agreement, in a state in which the ports work. -/
theorem Lines.working {s : State} (hw : s.works = true) (engaged : s.engagement.isSome = true → s.maySend = true)
    (draining : s.device = .drain → s.engagement.isSome = true) (frame : s.transmitter.holdsFrame = s.isSending)
    (head : sendsHead s.uplinkTransmitter s.up.frames) : Lines s :=
  ⟨engaged, draining, frame, head, fun h => by simp [hw] at h⟩

theorem State.maySend_works {s : State} (h : s.maySend = true) : s.works = true := by
  simp only [State.maySend, State.works, Bool.or_eq_true, decide_eq_true_eq] at *
  rcases h with h | h <;> simp [h, DeviceState.works]

/-- The ports work while an engagement is open. -/
theorem Lines.open_works {s : State} {g : Engagement} (h : Lines s) (hg : s.engagement = some g) : s.works = true :=
  State.maySend_works (h.engaged (by simp [hg]))

/-- The state of an engagement whose frame has left the transmitter. -/
theorem Lines.toWorking {s : State} {g : Engagement} (h : Lines s) (hg : s.engagement = some g)
    (hr : g.state ≠ .sending) : Working s :=
  ⟨h.open_works hg, h.head, by rw [h.frame]; simp [State.isSending, hg, hr]⟩

/-- The agreement of a state with an engagement past SENDING. -/
theorem Working.open {s : State} {g : Engagement} (h : Working s) (hm : s.maySend = true)
    (hg : s.engagement = some g) (hr : g.state ≠ .sending) : Lines s :=
  Lines.working h.works (fun _ => hm) (fun _ => by simp [hg])
    (by rw [h.noFrame]; simp [State.isSending, hg, hr]) h.head

theorem Lines.congr {s t : State} (h : Lines s) (hd : t.device = s.device) (hg : t.engagement = s.engagement)
    (ht : t.transmitter = s.transmitter) (hu : t.uplinkTransmitter = s.uplinkTransmitter) (hq : t.up = s.up)
    (hdq : t.downQueue = s.downQueue) (hs : t.slot = s.slot) (he : s.works = false → t.events = s.events)
    (huf : s.works = false → t.uplink.frame = s.uplink.frame)
    (hsf : s.works = false → t.segment.state = s.segment.state) : Lines t := by
  refine ⟨?_, ?_, ?_, ?_, ?_⟩
  · rw [hg]; simpa [State.maySend, hd] using h.engaged
  · rw [hg, hd]; exact h.draining
  · rw [ht]; simpa [State.isSending, hg] using h.frame
  · rw [hu, hq]; exact h.head
  · intro hw
    have hw' : s.works = false := by simpa [State.works, hd] using hw
    obtain ⟨a, b, c, d, e, f⟩ := h.quiescent hw'
    exact ⟨by rw [hdq]; exact a, by rw [hs]; exact b, by rw [hq]; exact c, by rw [he hw']; exact d,
      by rw [huf hw']; exact e, by rw [hsf hw']; exact f⟩

/-! ### Closing an engagement -/

theorem State.moveToIdle_device (s : State) (h : s.engagement.isSome = true) :
    s.moveToIdle.device = if s.device = .drain then .standby else s.device := by
  unfold State.moveToIdle
  split
  · simp_all
  · simp

theorem State.moveToIdle_works (s : State) (h : s.works = true) : s.moveToIdle.works = true := by
  unfold State.moveToIdle
  split
  · exact h
  · simp only [State.works] at *
    simp only [State.applyPending_frame]
    split
    · rfl
    · exact h

/-- The move to IDLE (R97, R158). -/
theorem Working.toIdle {s : State} (h : Working s) (hg : s.engagement.isSome = true) : Lines s.moveToIdle := by
  have hn : s.moveToIdle.engagement = none := by
    unfold State.moveToIdle
    split <;> simp [*]
  refine Lines.working (s.moveToIdle_works h.works) (by simp [hn]) ?_ ?_ ?_
  · rw [s.moveToIdle_device hg]
    split <;> simp_all
  · simpa [State.isSending, hn] using h.noFrame
  · simpa using h.head

/-- The end of SETTLING (R102). -/
theorem Working.endSettling {s : State} {g : Engagement} (h : Working s) (hm : s.maySend = true)
    (hg : s.engagement = some g) (hr : g.state ≠ .sending) : Lines s.endSettling := by
  unfold State.endSettling
  rw [hg]
  dsimp only
  split
  · rename_i b hb
    have h1 : ∀ t : State, t = (if b = true then s.setLastClosed g else s) → Working t ∧ t.engagement = some g := by
      rintro t rfl
      split
      · exact ⟨h.congr rfl rfl rfl rfl, hg⟩
      · exact ⟨h, hg⟩
    obtain ⟨h2, h3⟩ := h1 _ rfl
    split
    · exact Working.toIdle (h2.congr (by simp) (by simp) (by simp) (by simp)) (by simp [h3])
    · exact h2.toIdle (by simp [h3])
  · exact h.open hm hg hr

/-- The move to SETTLING (R102). -/
theorem Working.enterSettling {s : State} {g : Engagement} (h : Working s) (b : Bool) (hm : s.maySend = true)
    (hg : s.engagement = some g) : Lines (s.enterSettling b) := by
  have h1 : Working { s with engagement := some { g with state := .settling b } } := h.congr rfl rfl rfl rfl
  unfold State.enterSettling
  rw [hg]
  dsimp only
  split
  · exact h1.endSettling hm rfl (by simp)
  · exact h1.open hm rfl (by simp)

/-- The close of a REQUEST with its answer (R97). -/
theorem Working.closeRequest {s : State} (h : Working s) (g : Engagement) (f : UpFrame)
    (hg : s.engagement.isSome = true) : Lines (s.closeRequest g f) :=
  Working.toIdle ((h.admitExchange f).congr (t := (s.admitExchange f).setLastClosed g) rfl rfl rfl rfl) (by simpa)

/-! ### The Exchange Engine -/

theorem Lines.post {s : State} (h : Lines s) (hw : s.works = true) (k : EventKind) (i : Option (Fin 64))
    (o : Option Byte) (d : Half) : Lines (s.post k i o d) := by
  apply h.congr <;> first | rfl | (intro hf; simp [hw] at hf)

theorem Lines.modifyEntry {s : State} (h : Lines s) (i : Option (Fin 64)) (f : Entry → Entry) :
    Lines (s.modifyEntry i f) := by
  apply h.congr <;> simp

theorem Lines.charge {s : State} (h : Lines s) (hw : s.works = true) (g : Engagement) (c : Statistics → Statistics)
    (k : OutcomeKind) (w : Option EventKind) (d : Half) : Lines (s.charge g c k w d) := by
  apply h.congr <;> first | simp | (intro hf; simp [hw] at hf)

theorem Lines.judgeIdle {s : State} (h : Lines s) (hw : s.works = true) (f : Frame) : Lines (s.judgeIdle f) := by
  unfold State.judgeIdle State.stray
  repeat' split
  all_goals first
    | exact h.post hw _ _ _ _
    | exact (h.post hw _ _ _ _).modifyEntry _ _

theorem Working.charge {s : State} (h : Working s) (g : Engagement) (c : Statistics → Statistics)
    (k : OutcomeKind) (w : Option EventKind) (d : Half) : Working (s.charge g c k w d) :=
  h.congr (by simp) (by simp) (by simp) (by simp)

theorem Working.creditAnswer {s : State} (h : Working s) (g : Engagement) (v : Option Nat) :
    Working (s.creditAnswer g v) := h.congr (by simp) (by simp) (by simp) (by simp)

theorem Lines.judgeResponse {s : State} {g : Engagement} (h : Lines s) (hg : s.engagement = some g)
    (hr : g.state ≠ .sending) (e : Ended) : Lines (s.judgeResponse g e) := by
  have hw := h.toWorking hg hr
  unfold State.judgeResponse State.closeDamaged State.closeRejected State.closeAnswered
  repeat' split
  · exact (hw.charge _ _ _ _ _).closeRequest _ _ (by simp [hg])
  · exact (hw.charge _ _ _ _ _).closeRequest _ _ (by simp [hg])
  · exact (hw.charge _ _ _ _ _).closeRequest _ _ (by simp [hg])
  · exact (hw.creditAnswer _ _).closeRequest _ _ (by simp [hg])

theorem Lines.offerPublication {s : State} (h : Lines s) (hw : s.works = true) (g : Engagement) (f : Frame) :
    Lines (s.offerPublication g f) := by
  unfold State.offerPublication
  split
  · exact h.post hw _ _ _ _
  · rename_i dest _
    split
    · have hm := h.modifyEntry g.index (fun e => { e with statistics := e.statistics.addPublished })
      have hw' : State.works (s.modifyEntry g.index (fun e => { e with statistics := e.statistics.addPublished })) =
          true := by
        simpa [State.works] using hw
      exact Lines.working hw' hm.engaged hm.draining hm.frame (State.enqueue_head hw' (.inr hm.head) _)
    · exact h.post hw _ _ _ _

theorem Lines.judgeHolding {s : State} {g : Engagement} (h : Lines s) (hg : s.engagement = some g)
    (hr : g.state = .holding) (e : Ended) : Lines (s.judgeHolding g e) := by
  have hn : g.state ≠ .sending := by simp [hr]
  have hw := h.toWorking hg hn
  unfold State.judgeHolding
  split
  · exact h.charge hw.works _ _ _ _ _
  · split
    · exact h.post hw.works _ _ _ _
    · split
      · unfold State.holderPublish
        have h1 : Lines { s with engagement := some { g with seen := g.seen.map satInc } } :=
          Working.open (hw.congr rfl rfl rfl rfl) (h.engaged (by simp [hg])) rfl hn
        dsimp only
        split
        · exact h1
        · split
          · exact (h1.modifyEntry _ _).offerPublication (by simpa [State.works] using hw.works) _ _
          · exact (h1.modifyEntry _ _).modifyEntry _ _
      · split
        · exact ((hw.creditAnswer g none).admitExchange _).toIdle (by simp [hg])
        · exact h.charge hw.works _ _ _ _ _

/-- An ended frame handed to the engine (R37). -/
theorem Lines.engineFrame {s : State} (h : Lines s) (hw : s.works = true) (e : Ended) : Lines (s.engineFrame e) := by
  unfold State.engineFrame
  split
  · exact h
  · split
    · split
      · exact h.judgeIdle hw _
      · exact h
    · rename_i g hg
      split
      · split
        · exact h.post hw _ _ _ _
        · exact h
      · split
        · exact h.post hw _ _ _ _
        · exact h
      · exact h
      · rename_i hr
        exact h.judgeResponse hg (by simp [hr]) e
      · exact h.judgeHolding hg (by assumption) e

theorem Lines.engineFrameIf {s : State} (h : Lines s) (hw : s.works = true) (e : Option Ended) :
    Lines (s.engineFrameIf e) := by
  unfold State.engineFrameIf
  split
  · exact h
  · exact h.engineFrame hw _

theorem Lines.engineHead {s : State} (h : Lines s) : Lines s.engineHead := by
  unfold State.engineHead
  split
  · exact h
  · split
    · exact h
    · rename_i g hg
      split
      · rename_i hr
        exact Working.open ((h.toWorking hg (by simp [hr])).congr rfl rfl rfl rfl) (h.engaged (by simp [hg])) rfl
          (by simp)
      · exact h

theorem Lines.engineMuted {s : State} (h : Lines s) (d : Option Damage) : Lines (s.engineMuted d) := by
  unfold State.engineMuted
  split
  · exact h
  · split
    · exact h
    · rename_i g hg
      have hm := h.engaged (by simp [hg])
      split
      all_goals first
        | exact h
        | (rename_i hr
           exact (((h.toWorking hg (by simp [hr])).charge _ _ _ _ _).admitExchange _).enterSettling _
             (by simpa [State.maySend] using hm) (by simpa using hg))

theorem Lines.engineQuiet {s : State} (h : Lines s) : Lines s.engineQuiet := by
  unfold State.engineQuiet
  split
  · exact h
  · split
    · exact h
    · rename_i g hg
      split
      · rename_i hr
        exact (h.toWorking hg (by simp [hr])).endSettling (h.engaged (by simp [hg])) hg (by simp [hr])
      · exact h

/-- The completion reported with the transmitter IDLE again (R54, R84, R110). -/
theorem Lines.complete {s : State} (h : Lines s) (hw : s.works = true) (r : SegmentReceiver) :
    Lines (State.engineComplete { s with transmitter := .idle, segment := r }) := by
  have w : Working { s with transmitter := .idle, segment := r } := ⟨hw, h.head, rfl⟩
  unfold State.engineComplete
  dsimp only
  split
  · rename_i hg
    have hg : s.engagement = none := hg
    exact Lines.working hw (by simp [hg]) (by simpa [hg] using h.draining) (by simp [State.isSending, hg,
      SegmentTransmitter.holdsFrame]) h.head
  · rename_i g hg
    have hg : s.engagement = some g := hg
    have hm := h.engaged (by simp [hg])
    split
    · split
      · exact Working.open (w.congr rfl rfl rfl rfl) hm rfl (by simp)
      · exact Working.toIdle (w.congr (by simp) (by simp) (by simp) (by simp)) (by simp [hg])
      · exact Working.open (w.congr rfl rfl rfl rfl) hm rfl (by simp)
    · rename_i hr
      exact w.open hm hg hr

theorem beginAbort_holdsFrame (f : LineFrame) (n : Nat) : (beginAbort f n).holdsFrame = false := by
  unfold beginAbort
  split <;> rfl

theorem SegmentTransmitter.abort_holdsFrame (t : SegmentTransmitter) : t.abort.holdsFrame = false := by
  unfold SegmentTransmitter.abort
  split
  · rfl
  · rfl
  · exact beginAbort_holdsFrame _ _
  · rfl

/-- An echo fault (R55, R85). -/
theorem Lines.faultEcho {s : State} (h : Lines s) (hw : s.works = true) (n : Nat) : Lines (s.faultEcho n) := by
  have w : Working { s with transmitter := s.transmitter.abort } :=
    ⟨hw, h.head, s.transmitter.abort_holdsFrame⟩
  unfold State.faultEcho State.engineEchoFault
  dsimp only
  split
  · rename_i hg
    have hg : s.engagement = none := hg
    exact Lines.working hw (by simp [hg]) (by simpa [hg] using h.draining)
      (by simp [State.isSending, hg, SegmentTransmitter.abort_holdsFrame]) h.head
  · rename_i g hg
    have hg : s.engagement = some g := hg
    have hm := h.engaged (by simp [hg])
    split
    · refine Working.enterSettling (g := g) (Working.answerIfOwed ?_ _ _) _ (by simpa [State.maySend] using hm)
        (by simpa using hg)
      exact Working.congr w rfl rfl rfl rfl
    · rename_i hr
      exact w.open hm hg hr

theorem Working.truncate {s : State} (h : Working s) : Working s.truncate :=
  h.congr (by simp) (by simp) (by simp) (by simp)

theorem State.endSettling_works {s : State} (h : s.works = true) : s.endSettling.works = true := by
  unfold State.endSettling
  split
  · exact h
  · split
    · dsimp only
      apply State.moveToIdle_works
      split <;> split <;> simpa [State.works] using h
    · exact h

theorem State.enterSettling_works {s : State} (b : Bool) (h : s.works = true) : (s.enterSettling b).works = true := by
  unfold State.enterSettling
  split
  · exact h
  · dsimp only
    split
    · exact State.endSettling_works h
    · exact h

theorem Lines.abandonEngagement {s : State} (h : Lines s) : Lines s.abandonEngagement := by
  unfold State.abandonEngagement
  split
  · exact h
  · rename_i g hg
    have hm := h.engaged (by simp [hg])
    dsimp only
    split
    · have w : Working s.orderAbort := ⟨h.open_works hg, h.head, s.transmitter.abort_holdsFrame⟩
      exact ((w.post _ _ _ _).answerIfOwed _ _).enterSettling _ (by simpa [State.maySend] using hm)
        (by simpa using hg)
    · rename_i hr
      exact (((h.toWorking hg (by simp [hr])).post _ _ _ _).admitExchange _).enterSettling _ hm hg
    · rename_i hr
      have w := (h.toWorking hg (by simp [hr])).truncate
      refine Lines.engineFrameIf (((w.post _ _ _ _).admitExchange _).enterSettling _
        (by simpa [State.maySend] using hm) (by simpa using hg)) ?_ _
      exact State.enterSettling_works _ ((w.post _ _ _ _).admitExchange _).works
    · rename_i hr
      have w := (h.toWorking hg (by simp [hr])).truncate
      refine Lines.engineFrameIf (((w.post _ _ _ _).admitExchange _).enterSettling _
        (by simpa [State.maySend] using hm) (by simpa using hg)) ?_ _
      exact State.enterSettling_works _ ((w.post _ _ _ _).admitExchange _).works
    · exact h

theorem Lines.expireDeadline {s : State} {g : Engagement} (h : Lines s) (hg : s.engagement = some g)
    (hr : g.state = .awaiting) : Lines (s.expireDeadline g) := by
  unfold State.expireDeadline
  exact Working.closeRequest (Working.charge (Working.congr (t := { s with watch := s.engagedDeadline g })
    (h.toWorking hg (by simp [hr])) rfl rfl rfl rfl) _ _ _ _ _) _ _ (by simp [hg])

theorem Lines.expireToken {s : State} {g : Engagement} (h : Lines s) (hg : s.engagement = some g)
    (hr : g.state = .holding) : Lines (s.expireToken g) := by
  have hm := h.engaged (by simp [hg])
  have w : Working { s.truncate with token := 0 } :=
    Working.congr (h.toWorking hg (by simp [hr])) (by simp) (by simp) (by simp) (by simp)
  unfold State.expireToken
  refine Lines.engineFrameIf (((w.charge _ _ _ _ _).admitExchange _).enterSettling _
    (by simpa [State.maySend] using hm) (by simpa using hg)) ?_ _
  exact State.enterSettling_works _ ((w.charge _ _ _ _ _).admitExchange _).works

/-! ### The Segment Port -/

/-- A transmitter that begins its frame still holds it (R52). -/
theorem Lines.startIfReady {s : State} (h : Lines s) : Lines s.startIfReady := by
  unfold State.startIfReady
  split
  · rename_i f hf
    split
    · rename_i hc
      simp only [Bool.and_eq_true] at hc
      exact Lines.working (State.maySend_works hc.2) h.engaged h.draining
        (by have := h.frame; simpa [hf, SegmentTransmitter.holdsFrame, State.isSending] using this) h.head
    · exact h
  · exact h

theorem State.handOver_holdsFrame (s : State) (f : LineFrame) : (s.handOver f).transmitter.holdsFrame = true := by
  unfold State.handOver
  split
  · rfl
  · unfold State.startIfReady
    dsimp only
    split <;> rfl

/-! ### Admission (chapter 4) -/

/-- The agreement without the uplink transmitter. -/
structure Agree (s : State) : Prop where
  engaged : s.engagement.isSome = true → s.maySend = true
  draining : s.device = .drain → s.engagement.isSome = true
  frame : s.transmitter.holdsFrame = s.isSending

/-- A change that leaves the Up Queue and the uplink transmitter alone, or leaves the transmitter sending the head. -/
def UplinkStep (s t : State) : Prop :=
  (t.uplinkTransmitter = s.uplinkTransmitter ∧ t.up.frames = s.up.frames) ∨ sendsHead t.uplinkTransmitter t.up.frames

/-- The transmitter is idle or sends the head. -/
def Heads (s : State) : Prop := s.uplinkTransmitter = .idle ∨ sendsHead s.uplinkTransmitter s.up.frames

theorem Agree.congr {s t : State} (h : Agree s) (hd : t.device = s.device) (hg : t.engagement = s.engagement)
    (ht : t.transmitter = s.transmitter) : Agree t :=
  ⟨by simpa [hg, State.maySend, hd] using h.engaged, by simpa [hg, hd] using h.draining,
    by simpa [ht, State.isSending, hg] using h.frame⟩

/-- A state in RUN whose engagement has just opened with its frame handed over (R79, R80). -/
theorem Agree.opened {s : State} {g : Engagement} (f : LineFrame) (hr : s.device = .run) (hg : s.engagement = some g)
    (hs : g.state = .sending) : Agree (s.handOver f) := by
  refine ⟨?_, ?_, ?_⟩
  · simp [State.maySend, hr]
  · simp [hr]
  · rw [State.handOver_holdsFrame]
    simp [State.isSending, hg, hs]

theorem Agree.forward {s : State} (hr : s.device = .run) (f : DownFrame) (i : Fin 64) (e : Entry) (b : Bool) :
    Agree (s.forward f i e b) := by
  unfold State.forward
  exact Agree.opened _ (by simpa using hr) rfl rfl

theorem Agree.forwardBroadcast {s : State} (hr : s.device = .run) (f : DownFrame) : Agree (s.forwardBroadcast f) := by
  unfold State.forwardBroadcast
  refine Agree.opened _ ?_ rfl rfl
  exact hr

theorem Agree.refuse {s : State} (h : Agree s) (f : DownFrame) (i : Option (Fin 64)) (o : Option Byte) (r : Reason)
    (n : Nat) : Agree (s.refuse f i o r n) := h.congr (by simp) (by simp) (by simp)

theorem Agree.modifyEntry {s : State} (h : Agree s) (i : Option (Fin 64)) (f : Entry → Entry) :
    Agree (s.modifyEntry i f) := h.congr (by simp) (by simp) (by simp)

theorem Agree.admitChecked {s : State} (h : Agree s) (hr : s.device = .run) (f : DownFrame) (i : Fin 64) (e : Entry)
    (b : Bool) : Agree (s.admitChecked f i e b) := by
  unfold State.admitChecked
  split
  · exact h.refuse _ _ _ _ _
  · exact Agree.forward hr _ _ _ _

theorem Agree.admitEnforce {s : State} (h : Agree s) (hr : s.device = .run) (f : DownFrame) (i : Fin 64)
    (e : Entry) : Agree (s.admitEnforce f i e) := by
  unfold State.admitEnforce
  split
  · exact h.refuse _ _ _ _ _
  · split
    · split
      · exact (h.modifyEntry _ _).admitChecked (by simpa using hr) _ _ _ _
      · exact (h.modifyEntry _ _).refuse _ _ _ _ _
    · exact h.admitChecked hr _ _ _ _

theorem Agree.admitObserve {s : State} (h : Agree s) (hr : s.device = .run) (f : DownFrame) (i : Fin 64)
    (e : Entry) : Agree (s.admitObserve f i e) := by
  unfold State.admitObserve
  split
  · exact h.refuse _ _ _ _ _
  · split
    · exact Agree.forward (by simpa using hr) _ _ _ _
    · exact Agree.forward hr _ _ _ _

theorem Agree.examine {s : State} (h : Agree s) (hr : s.device = .run) (f : DownFrame) : Agree (s.examine f) := by
  unfold State.examine
  split
  · split
    · exact Agree.forwardBroadcast hr _
    · exact h.refuse _ _ _ _ _
  · split
    · exact h.refuse _ _ _ _ _
    · split
      · exact h.refuse _ _ _ _ _
      · split
        · exact h.admitEnforce hr _ _ _
        · exact h.admitObserve hr _ _ _

/-- The take (R66, R67). -/
theorem Agree.takeHead {s : State} (h : Agree s)
    (hd : s.device = .run ∨ s.device = .standby) : Agree s.takeHead := by
  unfold State.takeHead
  split
  · exact h
  · rename_i f rest _
    have h1 : Agree { s with downQueue := rest, up := { s.up with exchangeHeld := true } } := h.congr rfl rfl rfl
    dsimp only
    split
    · exact h1.congr (by simp) (by simp) (by simp)
    · rename_i hns
      refine h1.examine ?_ _
      rcases hd with hd | hd
      · exact hd
      · exact absurd hd hns

theorem UplinkStep.refl (s : State) : UplinkStep s s := .inl ⟨rfl, rfl⟩

theorem UplinkStep.of_eq {s t : State} (hu : t.uplinkTransmitter = s.uplinkTransmitter)
    (hf : t.up.frames = s.up.frames) : UplinkStep s t := .inl ⟨hu, hf⟩

theorem UplinkStep.trans {s t u : State} (h : UplinkStep s t) (h' : UplinkStep t u) : UplinkStep s u := by
  rcases h' with ⟨a, b⟩ | h'
  · rcases h with ⟨c, d⟩ | h
    · exact .inl ⟨a.trans c, b.trans d⟩
    · exact .inr (by rw [a, b]; exact h)
  · exact .inr h'

theorem UplinkStep.heads {s t : State} (h : UplinkStep s t) (hs : Heads s) : Heads t := by
  rcases h with ⟨a, b⟩ | h
  · unfold Heads; rw [a, b]; exact hs
  · exact .inr h

theorem UplinkStep.head {s t : State} (h : UplinkStep s t) (hs : sendsHead s.uplinkTransmitter s.up.frames) :
    sendsHead t.uplinkTransmitter t.up.frames := by
  rcases h with ⟨a, b⟩ | h
  · rw [a, b]; exact hs
  · exact h

theorem UplinkStep.refuse {s : State} (hw : s.works = true) (hs : Heads s) (f : DownFrame) (i : Option (Fin 64))
    (o : Option Byte) (r : Reason) (n : Nat) : UplinkStep s (s.refuse f i o r n) := by
  have hr : UplinkStep s (s.recordRefusal i o r false) := .of_eq (by simp) (by simp)
  have hw' : (s.recordRefusal i o r false).works = true := by simpa [State.works] using hw
  have hh := hr.heads hs
  refine hr.trans ?_
  unfold State.refuse State.answerLocally
  split
  · exact .of_eq (by simp) (by simp)
  · exact .inr (State.enqueue_head hw' hh _)
  · exact .inr (State.enqueue_head hw' hh _)

theorem UplinkStep.admitChecked {s : State} (hw : s.works = true) (hs : Heads s) (f : DownFrame) (i : Fin 64)
    (e : Entry) (b : Bool) : UplinkStep s (s.admitChecked f i e b) := by
  unfold State.admitChecked
  split
  · exact .refuse hw hs _ _ _ _ _
  · exact .of_eq (by simp) (by simp)

theorem UplinkStep.modifyEntry (s : State) (i : Option (Fin 64)) (f : Entry → Entry) :
    UplinkStep s (s.modifyEntry i f) := .of_eq (by simp) (by simp)

theorem State.modifyEntry_works {s : State} (hw : s.works = true) (i : Option (Fin 64)) (f : Entry → Entry) :
    (s.modifyEntry i f).works = true := by simpa [State.works] using hw

theorem UplinkStep.admitEnforce {s : State} (hw : s.works = true) (hs : Heads s) (f : DownFrame) (i : Fin 64)
    (e : Entry) : UplinkStep s (s.admitEnforce f i e) := by
  have hm := UplinkStep.modifyEntry s
  unfold State.admitEnforce
  split
  · exact .refuse hw hs _ _ _ _ _
  · split
    · split
      · exact (hm _ _).trans (.admitChecked (State.modifyEntry_works hw _ _) ((hm _ _).heads hs) _ _ _ _)
      · exact (hm _ _).trans (.refuse (State.modifyEntry_works hw _ _) ((hm _ _).heads hs) _ _ _ _ _)
    · exact .admitChecked hw hs _ _ _ _

theorem UplinkStep.admitObserve {s : State} (hw : s.works = true) (hs : Heads s) (f : DownFrame) (i : Fin 64)
    (e : Entry) : UplinkStep s (s.admitObserve f i e) := by
  unfold State.admitObserve
  split
  · exact .refuse hw hs _ _ _ _ _
  · split
    · exact .of_eq (by simp) (by simp)
    · exact .of_eq (by simp) (by simp)

theorem UplinkStep.examine {s : State} (hw : s.works = true) (hs : Heads s) (f : DownFrame) :
    UplinkStep s (s.examine f) := by
  unfold State.examine
  split
  · split
    · exact .of_eq (by simp) (by simp)
    · exact .refuse hw hs _ _ _ _ _
  · split
    · exact .refuse hw hs _ _ _ _ _
    · split
      · exact .refuse hw hs _ _ _ _ _
      · split
        · exact .admitEnforce hw hs _ _ _
        · exact .admitObserve hw hs _ _ _

theorem UplinkStep.takeHead {s : State} (hw : s.works = true) (hs : Heads s) : UplinkStep s s.takeHead := by
  unfold State.takeHead
  split
  · exact .refl s
  · rename_i f rest _
    dsimp only
    split
    · unfold State.answerLocally
      split
      · exact .of_eq (by simp) (by simp)
      · exact .inr (State.enqueue_head hw hs _)
      · exact .inr (State.enqueue_head hw hs _)
    · exact UplinkStep.trans (t := { s with downQueue := rest, up := { s.up with exchangeHeld := true } })
        (.of_eq rfl rfl) (.examine (by exact hw) (by exact hs) _)

theorem Lines.agree {s : State} (h : Lines s) : Agree s := ⟨h.engaged, h.draining, h.frame⟩

theorem State.takeHead_works {s : State} (h : s.works = true) : s.takeHead.works = true := by
  simpa [State.works] using h

/-- The take, in a state whose uplink transmitter sends the head. -/
theorem Lines.takeHead {s : State} (h : Lines s)
    (hd : s.device = .run ∨ s.device = .standby) : Lines s.takeHead := by
  have hw : s.works = true := by rcases hd with hd | hd <;> simp [State.works, hd, DeviceState.works]
  have ha := h.agree.takeHead hd
  exact Lines.working (State.takeHead_works hw) ha.engaged ha.draining ha.frame
    ((UplinkStep.takeHead hw (.inr h.head)).head h.head)

/-! ### The uplink and the Management Engine -/

theorem Lines.judgeUplink {s : State} (h : Lines s) (hw : s.works = true) (e : Ended) : Lines (s.judgeUplink e) := by
  have hp : ∀ k i o d, Lines (s.post k i o d) := fun k i o d => h.post hw k i o d
  unfold State.judgeUplink State.uplinkWrongKind State.placeRequest State.joinDown
  repeat' split
  all_goals first
    | exact hp _ _ _ _
    | (dsimp only; split) <;> exact Lines.working hw h.engaged h.draining h.frame h.head
    | exact Lines.working hw h.engaged h.draining h.frame h.head

/-- A reply is admitted (R170). -/
theorem Lines.reply {s : State} (h : Lines s) (hw : s.works = true) (c : Byte) (r : Reply) : Lines (s.reply c r) :=
  Lines.working hw h.engaged h.draining h.frame
    (State.enqueue_head (s := { s with up := { s.up with managementHeld := false }, slot := none }) hw (.inr h.head) _)

end Sys2Proof.Machine
end

