-- ==== Sys2Proof/Laws/LinesCommands.lean ====
section
/-! SUPPORT. The ports, the timers and the management acts keep the device state, the Engagement and the transmitters in
agreement. -/

namespace Sys2Proof.Machine

theorem Lines.open_frame {s : State} (h : Lines s) (hf : s.transmitter.holdsFrame = true) : s.works = true := by
  rw [h.frame] at hf
  unfold State.isSending at hf
  split at hf
  · simp at hf
  · exact h.open_works (by assumption)

theorem Lines.takeJabber {s : State} (h : Lines s) : Lines s.takeJabber := by
  unfold State.takeJabber State.enterMuted
  split
  · rename_i hc
    have hw : s.works = true := by simp [State.jabberDue, State.segmentFrames] at hc; exact hc.1.1.1
    apply Lines.engineMuted
    refine Lines.post ?_ (by exact hw) _ _ _ _
    exact Lines.working hw h.engaged h.draining h.frame h.head
  · exact h

theorem State.segment_lines {s : State} (h : Lines s) (hw : s.works = true) (r : SegmentReceiver) : Lines { s with
    segment := r } :=
  Lines.working hw h.engaged h.draining h.frame h.head

theorem State.uplink_lines {s : State} (h : Lines s) (hw : s.works = true) (r : UplinkReceiver) : Lines { s with
    uplink := r } :=
  Lines.working hw h.engaged h.draining h.frame h.head

theorem Lines.takeQuiet {s : State} (h : Lines s) : Lines s.takeQuiet := by
  unfold State.takeQuiet State.becomeQuiet
  split
  · rename_i hc
    have hw : s.works = true := by simp [State.quietDue] at hc; tauto
    exact (State.segment_lines h hw _).engineQuiet.startIfReady
  · exact h

theorem Lines.takeMissingEcho {s : State} (h : Lines s) : Lines s.takeMissingEcho := by
  unfold State.takeMissingEcho
  split
  · rename_i hc
    simp at hc
    exact h.faultEcho hc.1 _
  · exact h

theorem Lines.compareEcho {s : State} (h : Lines s) (hw : s.works = true) (c : LineChar) : Lines (s.compareEcho c) := by
  unfold State.compareEcho
  split
  · rename_i ht _
    split
    · split
      · exact h.complete hw _
      · exact Lines.working hw h.engaged h.draining (by have := h.frame; simpa [ht, SegmentTransmitter.holdsFrame,
          State.isSending] using this) h.head
    · exact h.faultEcho hw _
  · exact h

theorem afterAbort_holds (t : SegmentTransmitter) : t.afterAbort.holdsFrame = t.holdsFrame := by
  unfold SegmentTransmitter.afterAbort
  split <;> rfl

theorem Lines.takeAbortEnd {s : State} (h : Lines s) : Lines s.takeAbortEnd := by
  unfold State.takeAbortEnd
  split
  · refine Lines.startIfReady ⟨h.engaged, h.draining, ?_, h.head, ?_⟩
    · rw [afterAbort_holds]; exact h.frame
    · intro hw
      obtain ⟨a,b,c,d,e,f⟩ := h.quiescent hw
      exact ⟨a,b,c,d,e,f⟩
  · exact h

theorem Lines.fragmentUplink {s : State} (h : Lines s) (hw : s.works = true) : Lines s.fragmentUplink := by
  unfold State.fragmentUplink
  split
  · exact h
  · refine Lines.judgeUplink ?_ (by exact hw) _; exact State.uplink_lines h hw _

theorem works_fragmentUplink {s : State} (hw : s.works = true) : s.fragmentUplink.works = true := by
  unfold State.fragmentUplink
  split
  · exact hw
  · unfold State.judgeUplink State.uplinkWrongKind State.placeRequest State.joinDown
    repeat' split
    all_goals first | exact hw | (dsimp only; split <;> exact hw)

theorem Lines.takeUplink {s : State} (h : Lines s) (c) : Lines (s.takeUplink c) := by
  unfold State.takeUplink State.frameUplink
  split
  · rename_i hw
    have h1 : Lines s.hearUplink := State.uplink_lines h hw _
    repeat' split
    · exact State.uplink_lines (h1.fragmentUplink hw) (works_fragmentUplink hw) _
    · exact h1
    · exact State.uplink_lines h1 hw _
    · refine Lines.judgeUplink ?_ (by exact hw) _; exact State.uplink_lines h1 hw _
  · exact h

theorem works_closeRequest {s : State} (hw : s.works = true) (g f) : (s.closeRequest g f).works = true := by
  apply State.moveToIdle_works; exact hw

theorem works_engineFrame {s : State} (hw : s.works = true) (e) : (s.engineFrame e).works = true := by
  unfold State.engineFrame State.judgeIdle State.stray State.judgeResponse State.closeDamaged State.closeRejected
      State.closeAnswered State.judgeHolding State.holderPublish State.offerPublication State.holderDamaged
          State.holderWrongKind State.holderReturn
  repeat' (first | split | dsimp only)
  all_goals first
    | exact hw
    | (apply works_closeRequest; simpa [State.works] using hw)
    | (simpa [State.works] using hw)
    | (apply State.moveToIdle_works; simpa [State.works] using hw)

theorem Lines.fragmentSegment {s : State} (h : Lines s) (hw : s.works = true) : Lines s.fragmentSegment ∧
    s.fragmentSegment.works = true := by
  unfold State.fragmentSegment
  split
  · refine ⟨Lines.engineFrame ?_ (by exact hw) _, works_engineFrame (by exact hw) _⟩; exact State.segment_lines h hw _
  · exact ⟨h, hw⟩

theorem Lines.takeSegment {s : State} (h : Lines s) (c) : Lines (s.takeSegment c) := by
  unfold State.takeSegment State.openSegment State.bodySegment
  split
  · rename_i hw
    dsimp only
    have h2 : Lines s.resumeRun.hearSegment := Lines.working hw h.engaged h.draining h.frame h.head
    have h1 : Lines s.resumeRun.hearSegment.countRun := State.segment_lines h2 hw _
    repeat' split
    · exact h2.compareEcho hw _
    · exact h2
    · exact h2
    · have := h1.fragmentSegment hw
      exact (State.segment_lines this.1 this.2 _).engineHead
    · exact State.segment_lines h1 hw _
    · refine Lines.engineFrame ?_ (by exact hw) _; exact State.segment_lines h1 hw _
    · exact h1
  · exact h

theorem Lines.takeUplinkFragment {s : State} (h : Lines s) : Lines s.takeUplinkFragment := by
  unfold State.takeUplinkFragment
  split
  · rename_i hc
    have hw : s.works = true := by simp [State.uplinkFragmentDue] at hc; tauto
    exact Lines.fragmentUplink (State.uplink_lines h hw _) hw
  · exact h

theorem Lines.takeSegmentFragment {s : State} (h : Lines s) : Lines s.takeSegmentFragment := by
  unfold State.takeSegmentFragment
  split
  · rename_i hc
    have hw : s.works = true := by simp [State.segmentFragmentDue, State.segmentFrames] at hc; tauto
    exact (Lines.fragmentSegment (by exact State.segment_lines h hw _) (by exact hw)).1
  · exact h

theorem Lines.takeDeadline {s : State} (h : Lines s) : Lines s.takeDeadline := by
  unfold State.takeDeadline State.deadlineDue
  split
  · exact h
  · rename_i g hd
    split at hd
    · simp at hd
    · split at hd
      · rename_i g' hg hc
        simp at hd; subst hd
        exact h.expireDeadline hg hc.1
      · simp at hd

theorem Lines.takeToken {s : State} (h : Lines s) : Lines s.takeToken := by
  unfold State.takeToken State.tokenDue
  split
  · exact h
  · rename_i g hd
    split at hd
    · simp at hd
    · split at hd
      · rename_i g' hg hc
        simp at hd; subst hd
        exact h.expireToken hg hc.1
      · simp at hd

theorem Lines.takeThreshold {s : State} (h : Lines s) (t) : Lines (s.takeThreshold t) := by
  cases t
  · exact h.takeDeadline
  · exact h.takeToken
  · exact h.takeJabber
  · exact h.takeQuiet
  · exact h.takeSegmentFragment
  · exact h.takeUplinkFragment
  · exact h.takeMissingEcho
  · exact h.takeAbortEnd

theorem Lines.same {s t : State} (h : Lines s) (h1 : t.device = s.device) (h2 : t.engagement = s.engagement) (h3 :
    t.transmitter = s.transmitter)
  (h4 : t.uplinkTransmitter = s.uplinkTransmitter) (h5 : t.up = s.up) (h6 : t.downQueue = s.downQueue) (h7 : t.slot =
      s.slot) (h8 : t.events = s.events)
  (h9 : t.uplink = s.uplink) (h10 : t.segment = s.segment) : Lines t := by
  apply h.congr <;> first | assumption | (intro; simp [*])

theorem Lines.settleOwed (n : Nat) : ∀ {s : State}, Lines s → Lines (State.settleOwed n s) := by
  induction n with
  | zero => intro s h; exact h.same rfl rfl rfl rfl rfl rfl rfl rfl rfl rfl
  | succ n ih =>
    intro s h
    unfold State.settleOwed
    split
    · exact h
    · apply Lines.takeThreshold; exact h.same rfl rfl rfl rfl rfl rfl rfl rfl rfl rfl
    · apply ih; apply Lines.takeThreshold; exact h.same rfl rfl rfl rfl rfl rfl rfl rfl rfl rfl

theorem Lines.hardReset {s} : Lines (State.hardReset s) := by
  refine ⟨by simp [State.reset], by simp [State.reset], rfl, trivial, fun _ => ⟨rfl, rfl, rfl, rfl, rfl, rfl⟩⟩

theorem Lines.softReset {s} : Lines (State.softReset s) := by
  refine ⟨by simp, by simp, ?_, trivial, fun _ => ⟨rfl, rfl, rfl, rfl, rfl, rfl⟩⟩
  simp [SegmentTransmitter.abort_holdsFrame, State.isSending]

theorem Lines.initialised {s} (h : Lines s) (hd : s.device = .init) : Lines (State.initialised s) := by
  refine Lines.working rfl (by simp) (by simp) ?_ trivial
  have hn : s.engagement = none := by
    cases hg : s.engagement with
    | none => rfl
    | some g => have := h.engaged (by simp [hg]); simp [State.maySend, hd] at this
  have := h.frame
  simpa [State.isSending, hn] using this

theorem Lines.completeUplink {s : State} (h : Lines s) (hs : s.uplinkTransmitter.isSending = true) : Lines
    s.completeUplink := by
  have hh := h.head
  unfold State.completeUplink
  split
  · rename_i hf
    rw [hf] at hh
    cases hu : s.uplinkTransmitter with
    | idle => simp [hu, UplinkTransmitter.isSending] at hs
    | sending w n => simp [hu, sendsHead] at hh
  · rename_i f rest hf
    have hw : s.works = true := by
      by_contra hc
      have := (h.quiescent (by simpa using hc)).up
      simp [this, UpQueue.empty] at hf
    split
    · exact Lines.softReset
    ·
      have hx : s.exchangeWaits = true → s.engagement = none ∧ (s.device = .run ∨ s.device = .standby) := by
        simp [State.exchangeWaits, State.exchangeAsks]
        tauto
      have key : ∀ (t : State), t.works = true → Agree t → t.uplinkTransmitter = .idle → ∀ a b, (a = true →
          t.engagement = none ∧ (t.device = .run ∨ t.device = .standby)) →
          Lines (t.grantFreed a b).beginUplink := by
        intro t htw hta hti a b ha
        have fin : ∀ u : State, u.works = true → Agree u → Heads u → Lines u.beginUplink := by
          intro u huw hua huh
          exact Lines.working huw hua.engaged hua.draining hua.frame (State.beginUplink_head huw huh)
        have tk : ∀ u : State, u.works = true → Agree u → u.uplinkTransmitter = .idle →
            u.engagement = none ∧ (u.device = .run ∨ u.device = .standby) → Lines u.takeHead.beginUplink := by
          intro u huw hua hui hue
          exact fin _ (State.takeHead_works huw) (hua.takeHead hue.2) ((UplinkStep.takeHead huw (.inl hui)).heads
              (.inl hui))
        unfold State.grantFreed
        split
        · exact fin _ htw hta (.inl hti)
        · exact tk _ htw hta hti (ha rfl)
        · exact fin _ htw ⟨hta.engaged, hta.draining, hta.frame⟩ (.inl hti)
        · split
          · exact tk _ htw ⟨hta.engaged, hta.draining, hta.frame⟩ hti (ha rfl)
          · exact fin _ htw ⟨hta.engaged, hta.draining, hta.frame⟩ (.inl hti)
      apply key
      · exact hw
      · exact ⟨h.engaged, h.draining, h.frame⟩
      · rfl
      · exact hx

theorem Lines.carryOut {s} (h : Lines s) (code : Byte) (len) (act)
   (ha : ∀ args, s.managementReady = true → Lines (act s args).1 ∧ (act s args).1.works = true) :
   Lines (s.carryOut code len act) := by
  unfold State.carryOut
  split
  · exact h
  · rename_i args hr
    have hrd : s.managementReady = true := by
      unfold State.requestFor at hr
      split at hr
      · assumption
      · simp at hr
    have hw : s.works = true := by
      simp [State.managementReady] at hrd; exact hrd.2
    dsimp only
    split
    · exact (ha args hrd).1.reply (ha args hrd).2 _ _
    · exact h.reply hw _ _

theorem ready_works {s : State} (h : s.managementReady = true) : s.works = true := by
  simp [State.managementReady] at h; exact h.2

theorem Lines.readOnly {s : State} (h : Lines s) (code len) (act : State → List Byte → State × Reply)
   (ha : ∀ args, (act s args).1 = s) : Lines (s.carryOut code len act) :=
  h.carryOut code len act (fun args hr => by rw [ha]; exact ⟨h, ready_works hr⟩)

theorem Lines.postReleased (l) : ∀ {s : State}, Lines s → s.works = true →
    Lines (s.postReleased l) ∧ (s.postReleased l).works = true := by
  induction l with
  | nil => intro s h hw; exact ⟨h, hw⟩
  | cons a l ih => intro s h hw; exact ih (h.post hw _ _ _ _) hw

theorem Lines.enterMuted {s : State} (h : Lines s) (hw : s.works = true) : Lines s.enterMuted := by
    unfold State.enterMuted
    apply Lines.engineMuted
    refine Lines.post ?_ (by exact hw) _ _ _ _
    exact Lines.working hw h.engaged h.draining h.frame h.head

theorem enterMuted_device (s : State) (h : s.device = .standby) : s.enterMuted.device = .standby := by
  unfold State.enterMuted State.engineMuted
  dsimp only
  rw [if_pos (by simpa using h)]
  exact h

theorem postReleased_device (l) : ∀ (s : State), (s.postReleased l).device = s.device := by
  induction l with
  | nil => intro s; rfl
  | cons a l ih => intro s; exact ih _

theorem standby_works {s : State} (h : s.device = .standby) : s.works = true
    := by simp [State.works, h, DeviceState.works]

theorem Lines.applyPolicy {s : State} (h : Lines s) (p) (hs : s.device = .standby) : Lines (s.applyPolicy p) ∧
    (s.applyPolicy p).works = true := by
  have hw := standby_works hs
  have h1 : Lines ((s.recount p).replacePolicy p).requiet := by
    unfold State.requiet
    split <;> exact Lines.working hw h.engaged h.draining h.frame h.head
  have hd : ((s.recount p).replacePolicy p).requiet.device = .standby := by unfold State.requiet; split <;> simpa using hs
  unfold State.applyPolicy State.postWritten
  split
  · split
    · exact ⟨h1.enterMuted (standby_works hd), standby_works (enterMuted_device _ hd)⟩
    · dsimp only
      have h2 : Lines { ((s.recount p).replacePolicy p).requiet with freeCount := ((s.recount p).replacePolicy p).requiet.freeCount + 1 } :=
          h1.same rfl rfl rfl rfl rfl rfl rfl rfl rfl rfl
      split
      · exact Lines.postReleased _ (h2.enterMuted (standby_works hd)) (standby_works (enterMuted_device _ hd))
      · have := Lines.postReleased ‹_› h2 (standby_works hd)
        exact ⟨(Lines.postReleased _ h2 (standby_works hd)).1.enterMuted (Lines.postReleased _ h2 (standby_works
            hd)).2, standby_works (enterMuted_device _ (by rw [postReleased_device]; exact hd))⟩
  · exact Lines.postReleased _ h1 (standby_works hd)

theorem engineFrameIf_works {s : State} (e) (h : s.works = true) : (s.engineFrameIf e).works = true := by
  unfold State.engineFrameIf; split; exact h; exact works_engineFrame h _

theorem abandon_works {s : State} (h : s.works = true) : s.abandonEngagement.works = true := by
  unfold State.abandonEngagement
  dsimp only
  split
  · exact h
  · split
    · exact State.enterSettling_works _ (by simpa [State.works] using h)
    · exact State.enterSettling_works _ (by simpa [State.works] using h)
    · exact engineFrameIf_works _ (State.enterSettling_works _ (by simpa [State.works] using h))
    · exact engineFrameIf_works _ (State.enterSettling_works _ (by simpa [State.works] using h))
    · exact h

theorem Lines.keepFields {s : State} (h : Lines s) (hw : s.works = true) (t : State) (h1 : t.device = s.device) (h2 :
    t.engagement = s.engagement) (h3 : t.transmitter = s.transmitter)
  (h4 : t.uplinkTransmitter = s.uplinkTransmitter) (h5 : t.up = s.up) : Lines t ∧ t.works = true := by
  have hw' : t.works = true := by simpa [State.works, h1] using hw
  refine ⟨Lines.working hw' ?_ ?_ ?_ ?_, hw'⟩
  · simpa [h2, State.maySend, h1] using h.engaged
  · simpa [h2, h1] using h.draining
  · simpa [h3, State.isSending, h2] using h.frame
  · rw [h4, h5]; exact h.head

end Sys2Proof.Machine
end

