-- ==== Sys2Proof/Laws/Tables.lean ====
section
/-! SUPPORT. What each shared operation does to the soundness of the Station Table and of the engaged entry. -/

namespace Sys2Proof.Machine

/-! ### Reading a changed table -/

theorem Table.get_eq (t : Vector (Option Entry) 64) (i : Fin 64) : t.get i = t[i.val] := rfl

theorem Table.get_set (t : Table) (i j : Fin 64) (e : Option Entry) :
    Vector.get (t.set i.val e) j = if i = j then e else t.get j := by
  simp only [Table.get_eq, Vector.getElem_set]
  by_cases h : i = j
  · simp [h]
  · simp [h, Fin.val_ne_of_ne h]

theorem Table.get_mapEntries (t : Table) (f : Entry → Entry) (j : Fin 64) :
    Vector.get (Table.mapEntries t f) j = (t.get j).map f := by
  simp [Table.mapEntries, Table.get_eq]

theorem Table.get_empty (j : Fin 64) : Vector.get (Vector.replicate 64 (none : Option Entry)) j = none := by
  simp [Table.get_eq]

theorem State.setEntry_get (s : State) (i j : Fin 64) (e : Option Entry) :
    (s.setEntry i e).table.get j = if i = j then e else s.table.get j := by
  rw [State.setEntry_table]
  exact Table.get_set _ _ _ _

/-- What changing a valid entry leaves at each index. -/
theorem State.modifyEntry_get (s : State) (i : Option (Fin 64)) (f : Entry → Entry) (j : Fin 64) :
    (s.modifyEntry i f).table.get j = if i = some j then (s.table.get j).map f else s.table.get j := by
  cases i with
  | none => simp [State.modifyEntry]
  | some k =>
    cases he : s.table.get k with
    | none =>
      by_cases h : k = j
      · subst h; simp [State.modifyEntry, State.entryAt, he]
      · simp [State.modifyEntry, State.entryAt, he, h]
    | some e =>
      have : s.modifyEntry (some k) f = s.setEntry k (some (f e)) := by simp [State.modifyEntry, State.entryAt, he]
      rw [this, State.setEntry_get]
      by_cases h : k = j
      · subst h; simp [he]
      · simp [h]

/-! ### Changes of runtime fields alone -/

/-- Every entry keeps its configuration and its pending update, and stays sound. -/
def KeepsEntries (p : Policy) (s t : State) : Prop :=
  ∀ i, match s.table.get i, t.table.get i with
    | none, none => True
    | some e, some e' => e'.config = e.config ∧ e'.pending = e.pending ∧ (e.Sound p → e'.Sound p)
    | none, some _ => False
    | some _, none => False

theorem KeepsEntries.of_eq {p : Policy} {s t : State} (h : t.table = s.table) : KeepsEntries p s t := by
  intro i
  rw [h]
  cases s.table.get i <;> simp

theorem KeepsEntries.back {p : Policy} {s t : State} (h : KeepsEntries p s t) {i : Fin 64} {e' : Entry}
    (he : t.table.get i = some e') :
    ∃ e, s.table.get i = some e ∧ e'.config = e.config ∧ e'.pending = e.pending ∧ (e.Sound p → e'.Sound p) := by
  have := h i
  rw [he] at this
  cases hs : s.table.get i with
  | none => simp [hs] at this
  | some e => exact ⟨e, rfl, by simpa [hs] using this⟩

theorem KeepsEntries.forth {p : Policy} {s t : State} (h : KeepsEntries p s t) {i : Fin 64} {e : Entry}
    (he : s.table.get i = some e) :
    ∃ e', t.table.get i = some e' ∧ e'.config = e.config ∧ e'.pending = e.pending ∧ (e.Sound p → e'.Sound p) := by
  have := h i
  rw [he] at this
  cases ht : t.table.get i with
  | none => simp [ht] at this
  | some e' => exact ⟨e', rfl, by simpa [ht] using this⟩

theorem KeepsEntries.trans {p : Policy} {s t u : State} (h : KeepsEntries p s t) (h' : KeepsEntries p t u) :
    KeepsEntries p s u := by
  intro i
  cases hu : u.table.get i with
  | none =>
    cases hs : s.table.get i with
    | none => simp
    | some e =>
      obtain ⟨e', ht, -⟩ := h.forth hs
      obtain ⟨e'', hu', -⟩ := h'.forth ht
      simp [hu] at hu'
  | some e'' =>
    obtain ⟨e', ht, c1, p1, s1⟩ := h'.back hu
    obtain ⟨e, hs, c2, p2, s2⟩ := h.back ht
    rw [hs]
    exact ⟨c1.trans c2, p1.trans p2, fun x => s1 (s2 x)⟩

/-- A change of the runtime fields of one entry. -/
theorem KeepsEntries.modifyEntry {p : Policy} (s : State) (i : Option (Fin 64)) (f : Entry → Entry)
    (hf : ∀ e, (f e).config = e.config ∧ (f e).pending = e.pending ∧ (e.Sound p → (f e).Sound p)) :
    KeepsEntries p s (s.modifyEntry i f) := by
  intro j
  rw [State.modifyEntry_get]
  cases h : s.table.get j with
  | none => by_cases hi : i = some j <;> simp [hi]
  | some e =>
    by_cases hi : i = some j
    · simpa [hi] using hf e
    · simp [hi]

theorem KeepsEntries.setEntry {p : Policy} (s : State) (i : Fin 64) (e e' : Entry) (he : s.table.get i = some e)
    (hf : e'.config = e.config ∧ e'.pending = e.pending ∧ (e.Sound p → e'.Sound p)) :
    KeepsEntries p s (s.setEntry i (some e')) := by
  intro j
  rw [State.setEntry_get]
  by_cases h : i = j
  · subst h; simpa [he] using hf
  · simp only [h, if_false]
    cases s.table.get j <;> simp

/-- The table and the engaged entry together. -/
structure Tables (s : State) : Prop where
  sound : TableSound s
  engaged : EngagedSound s

/-- Soundness through a change of runtime fields, with the same engaged index. -/
theorem TableSound.runtime {s t : State} (h : TableSound s) (hp : t.policy = s.policy)
    (hk : KeepsEntries s.policy s t) (hi : t.engagedIndex = s.engagedIndex) : TableSound t := by
  refine ⟨by rw [hp]; exact h.policy, ?_, ?_, ?_, ?_, ?_⟩
  · intro i e he
    obtain ⟨e0, h0, -, -, hs⟩ := hk.back he
    rw [hp]
    exact hs (h.entries i e0 h0)
  · intro i j a b ha hb hab
    obtain ⟨a0, ha0, ca, -, -⟩ := hk.back ha
    obtain ⟨b0, hb0, cb, -, -⟩ := hk.back hb
    exact h.outers i j a0 b0 ha0 hb0 (by rw [← ca, ← cb]; exact hab)
  · intro i j a b ha hb hab
    obtain ⟨a0, ha0, ca, -, -⟩ := hk.back ha
    obtain ⟨b0, hb0, cb, -, -⟩ := hk.back hb
    exact h.inners i j a0 b0 ha0 hb0 (by rw [← ca, ← cb]; exact hab)
  · intro i j a b c ha hc hb hij
    obtain ⟨a0, ha0, -, pa, -⟩ := hk.back ha
    obtain ⟨b0, hb0, cb, -, -⟩ := hk.back hb
    rw [cb]
    exact h.claims i j a0 b0 c ha0 (by rw [← pa]; exact hc) hb0 hij
  · intro i e he hpend
    obtain ⟨e0, h0, -, pe, -⟩ := hk.back he
    rw [hi]
    exact h.engaged i e0 h0 (by rw [← pe]; exact hpend)

/-- An open engagement's record may change where the entry is not concerned: its place and its state. -/
theorem EngagedSound.step {s t : State} {g g' : Engagement} (h : EngagedSound s) (hk : KeepsEntries s.policy s t)
    (hg : s.engagement = some g) (hg' : t.engagement = some g') (hi : g'.index = g.index) (ho : g'.outer = g.outer)
    (hn : g'.inner = g.inner) (hkd : g'.kind = g.kind) (hb : g'.budget = g.budget)
    (hnone : g.index = none → g'.state ≠ .awaiting ∧ g'.state ≠ .holding)
    (htok : ∀ j e, s.table.get j = some e → EngagedEntry s g e → g'.state = .holding →
      1 ≤ t.token ∧ t.token ≤ e.config.tokenCap.toNat)
    (hwatch : ∀ j e, s.table.get j = some e → EngagedEntry s g e → g'.state = .awaiting →
      g.kind = .request ∧ t.watch < e.config.deadline.toNat) : EngagedSound t := by
  intro x hx
  obtain rfl : g' = x := by rw [hg'] at hx; exact Option.some.inj hx
  have h0 := h g hg
  cases hidx : g.index with
  | none =>
    rw [hi, hidx]
    rw [hidx] at h0
    exact ⟨by rw [hkd]; exact h0.1, hnone hidx⟩
  | some j =>
    rw [hi, hidx]
    rw [hidx] at h0
    obtain ⟨e, he, hee⟩ := h0
    obtain ⟨e', he', hc, -, -⟩ := hk.forth he
    refine ⟨e', he', ?_, ?_, ?_, ?_, ?_, ?_⟩
    · rw [hc, ho]; exact hee.outer
    · rw [hc, hn]; exact hee.inner
    · rw [hkd, hc]; exact hee.polled
    · rw [hkd, hc, hb]; exact hee.budget
    · rw [hc]; exact htok j e he hee
    · rw [hc, hkd]; exact hwatch j e he hee

/-- The same record, the same counters. -/
theorem Tables.runtime {s t : State} (h : Tables s) (hp : t.policy = s.policy) (hk : KeepsEntries s.policy s t)
    (hg : t.engagement = s.engagement) (ht : t.token = s.token) (hw : t.watch = s.watch) : Tables t := by
  refine ⟨h.sound.runtime hp hk (by simp [State.engagedIndex, hg]), ?_⟩
  intro x hx
  have hx' : s.engagement = some x := by rw [← hg]; exact hx
  refine EngagedSound.step h.engaged hk hx' hx rfl rfl rfl rfl rfl ?_ ?_ ?_ x hx
  · intro hn
    have := h.engaged x hx'
    rw [hn] at this
    exact this.2
  · intro _ e _ he hs
    rw [ht]; exact he.token hs
  · intro _ e _ he hs
    rw [hw]; exact he.watch hs

theorem Tables.congr {s t : State} (h : Tables s) (hp : t.policy = s.policy) (hk : t.table = s.table)
    (hg : t.engagement = s.engagement) (ht : t.token = s.token) (hw : t.watch = s.watch) : Tables t :=
  h.runtime hp (.of_eq hk) hg ht hw

/-- No engagement is open and no update is pending. -/
theorem TableSound.idle {s : State} (h : TableSound s) (hg : s.engagement = none) : Tables s :=
  ⟨h, fun g hx => by rw [hg] at hx; exact absurd hx (by simp)⟩

/-! ### Entries under the operations of the engine -/

theorem Entry.Sound.of_fields {e e' : Entry} {p : Policy} (h : e.Sound p) (hc : e'.config = e.config)
    (hp : e'.pending = e.pending) (hs : e'.status = e.status) (hk : e'.strikes = e.strikes)
    (hn : e'.probeCountdown = e.probeCountdown) (hd : e'.dividerCount = e.dividerCount) : e'.Sound p := by
  refine ⟨?_, ?_, ?_, ?_, ?_, ?_, ?_⟩
  · rw [hc]; exact h.config
  · rw [hc, hs]; exact h.disabled
  · rw [hs]; exact h.barred
  · rw [hk]; exact h.strikes
  · rw [hn]; exact h.countdown
  · rw [hc, hd]; exact h.divider
  · rw [hp]; exact h.pending

/-- A strike (R98) keeps the ranges of R7 to R9. -/
theorem Entry.strike_sound (e : Entry) (p : Policy) (hp : 1 ≤ p.probeInterval.toNat)
    (ht : 1 ≤ p.strikeThreshold.toNat) :
    (e.strike p).1.config = e.config ∧ (e.strike p).1.pending = e.pending ∧ (e.Sound p → (e.strike p).1.Sound p) := by
  have hb : p.probeInterval.toNat ≤ 255 := by have := p.probeInterval.isLt; omega
  unfold Entry.strike
  split
  · rename_i hs
    split
    · split
      · rename_i hm
        refine ⟨rfl, rfl, fun h => ⟨h.config, ?_, fun _ => hm, by simp; omega, ⟨hp, hb⟩, h.divider, h.pending⟩⟩
        have := h.disabled
        simp_all
      · exact ⟨rfl, rfl, fun h => ⟨h.config, h.disabled, h.barred, by simp; omega, h.countdown, h.divider, h.pending⟩⟩
    · rename_i hne
      refine ⟨rfl, rfl, fun h => ⟨h.config, h.disabled, h.barred, ?_, h.countdown, h.divider, h.pending⟩⟩
      have := h.strikes
      simp
      omega
  · exact ⟨rfl, rfl, id⟩

theorem KeepsEntries.charge (s : State) (h : s.policy.Sound) (g : Engagement) (c : Statistics → Statistics)
    (k : OutcomeKind) (w : Option EventKind) (d : Half) : KeepsEntries s.policy s (s.charge g c k w d) := by
  unfold State.charge
  split
  · rename_i j e _ he
    have hj : s.table.get j = some e := by
      have : g.index = some j := by assumption
      rw [this] at he
      exact he
    have hs := Entry.strike_sound (Entry.record { e with statistics := c e.statistics } k) s.policy h.probeInterval
      h.strikeThreshold.1
    have h1 := KeepsEntries.setEntry (p := s.policy) s j e
      (Entry.strike (Entry.record { e with statistics := c e.statistics } k) s.policy).1 hj
      ⟨hs.1, hs.2.1, fun he => hs.2.2 (Entry.Sound.of_fields he rfl rfl rfl rfl rfl rfl)⟩
    exact h1.trans (.of_eq (by simp))
  · exact .of_eq (by simp)

theorem Entry.answered_keeps (e : Entry) (b : Bool) (p : Policy) (ht : 1 ≤ p.strikeThreshold.toNat) :
    (e.answered b).config = e.config ∧ (e.answered b).pending = e.pending ∧ (e.Sound p → (e.answered b).Sound p) := by
  refine ⟨rfl, rfl, fun h => ⟨h.config, ?_, ?_, ?_, h.countdown, h.divider, h.pending⟩⟩
  · have := h.disabled
    unfold Entry.answered Entry.record
    dsimp only
    split
    · simp_all
    · exact this
  · have := h.barred
    unfold Entry.answered Entry.record
    dsimp only
    split
    · simp
    · exact this
  · simp [Entry.answered, Entry.record]; omega

theorem KeepsEntries.creditAnswer (s : State) (h : s.policy.Sound) (g : Engagement) (v : Option Nat) :
    KeepsEntries s.policy s (s.creditAnswer g v) := by
  unfold State.creditAnswer
  split
  · rename_i j e _ he
    have hj : s.table.get j = some e := by
      have : g.index = some j := by assumption
      rw [this] at he
      exact he
    have key : ∀ e' : Entry, e'.config = e.config → e'.pending = e.pending → (e.Sound s.policy → e'.Sound s.policy) →
        KeepsEntries s.policy s (s.setEntry j (some (e'.answered g.probe))) := by
      intro e' h1 h2 h3
      have ha := Entry.answered_keeps e' g.probe s.policy h.strikeThreshold.1
      exact .setEntry s j e _ hj ⟨ha.1.trans h1, ha.2.1.trans h2, fun x => ha.2.2 (h3 x)⟩
    dsimp only
    cases v with
    | none => exact KeepsEntries.trans (key e rfl rfl id) (.of_eq (by simp))
    | some v =>
      exact KeepsEntries.trans
        (key { e with turnarounds := e.turnarounds.update (BitVec.ofNat 16 v) } rfl rfl fun hx =>
          hx.of_fields rfl rfl rfl rfl rfl rfl) (.of_eq (by simp))
  · exact .of_eq rfl

theorem Entry.advanceDivider_keeps (e : Entry) (p : Policy) :
    e.advanceDivider.config = e.config ∧ e.advanceDivider.pending = e.pending ∧
      (e.Sound p → e.advanceDivider.Sound p) := by
  refine ⟨rfl, rfl, fun h => ⟨h.config, h.disabled, h.barred, h.strikes, h.countdown, ?_, h.pending⟩⟩
  have hd := h.divider
  have hp := h.config.publishDivider
  unfold Entry.advanceDivider
  dsimp only
  split <;> split <;> simp_all <;> omega

/-- Counting, recording and the like change no field that soundness speaks of. -/
theorem KeepsEntries.count (s : State) (i : Option (Fin 64)) (f : Entry → Entry)
    (hf : ∀ e, (f e).config = e.config ∧ (f e).pending = e.pending ∧ (f e).status = e.status ∧
      (f e).strikes = e.strikes ∧ (f e).probeCountdown = e.probeCountdown ∧ (f e).dividerCount = e.dividerCount) :
    KeepsEntries s.policy s (s.modifyEntry i f) := by
  refine .modifyEntry s i f fun e => ?_
  obtain ⟨h1, h2, h3, h4, h5, h6⟩ := hf e
  exact ⟨h1, h2, fun h => h.of_fields h1 h2 h3 h4 h5 h6⟩

/-! ### Pending updates applied (R16, R17, R21) -/

theorem Entry.fresh_sound (c : Configuration) (p : Policy) (hp : p.Sound) (hc : c.Sound p.gateAddress) :
    (Entry.fresh c p.probeInterval).Sound p := by
  have hb : p.probeInterval.toNat ≤ 255 := by have := p.probeInterval.isLt; omega
  refine ⟨hc, ?_, ?_, ?_, ⟨hp.probeInterval, hb⟩, ?_, by simp [Entry.fresh]⟩
  · cases h : c.admin <;> simp [Entry.fresh, h]
  · cases h : c.admin <;> simp [Entry.fresh, h]
  · have := hp.strikeThreshold.1
    simp [Entry.fresh]; omega
  · have := hc.publishDivider
    simp only [Entry.fresh]
    split <;> simp_all
    omega

theorem Entry.rewrite_sound (e : Entry) (c : Configuration) (p : Policy) (hp : p.Sound) (he : e.Sound p)
    (hc : c.Sound p.gateAddress) : (e.rewrite c p.probeInterval).Sound p := by
  have hb : p.probeInterval.toNat ≤ 255 := by have := p.probeInterval.isLt; omega
  have h1 := hp.strikeThreshold.1
  have h2 := hp.probeInterval
  have h3 := he.disabled
  have h4 := he.barred
  have h5 := he.strikes
  have h6 := he.countdown
  have h7 := he.divider
  have h8 := hc.publishDivider
  have hdiv : if c.token = true then
      (if e.config.publishDivider = c.publishDivider ∧ e.config.token = c.token then e.dividerCount else 0)
        < c.publishDivider.toNat
      else (if e.config.publishDivider = c.publishDivider ∧ e.config.token = c.token then e.dividerCount else 0) = 0
          := by
    by_cases hk : e.config.publishDivider = c.publishDivider ∧ e.config.token = c.token
    · rw [if_pos hk, ← hk.1, ← hk.2]; exact h7
    · rw [if_neg hk]
      split <;> simp_all
      omega
  unfold Entry.rewrite
  cases ha : e.config.admin <;> cases hb' : c.admin <;>
    refine ⟨hc, ?_, ?_, ?_, ?_, hdiv, by simp⟩ <;> simp_all <;> omega

theorem applyWrite_sound (old : Option Entry) (c : Configuration) (p : Policy) (hp : p.Sound)
    (he : ∀ e, old = some e → e.Sound p) (hc : c.Sound p.gateAddress) :
    (applyWrite old c p.probeInterval).Sound p ∧ (applyWrite old c p.probeInterval).config = c ∧
      (applyWrite old c p.probeInterval).pending = none := by
  unfold applyWrite
  split
  · exact ⟨Entry.fresh_sound c p hp hc, rfl, rfl⟩
  · split
    · exact ⟨Entry.rewrite_sound _ c p hp (he _ rfl) hc, rfl, rfl⟩
    · exact ⟨Entry.fresh_sound c p hp hc, rfl, rfl⟩

/-- A configuration put at an index whose addresses no other entry has. -/
theorem TableSound.put {s : State} (h : TableSound s) (i : Fin 64) (e : Entry) (he : e.Sound s.policy)
    (hp : e.pending = none)
    (hfree : ∀ j b, s.table.get j = some b → i ≠ j →
      e.config.outer ≠ b.config.outer ∧ e.config.inner ≠ b.config.inner)
    (hclaim : ∀ j b c, s.table.get j = some b → b.pending = some (.write c) → j ≠ i →
      c.outer ≠ e.config.outer ∧ c.inner ≠ e.config.inner) : TableSound (s.setEntry i (some e)) := by
  have hget : ∀ j, (s.setEntry i (some e)).table.get j = if i = j then some e else s.table.get j :=
    fun j => s.setEntry_get i j _
  refine ⟨h.policy, ?_, ?_, ?_, ?_, ?_⟩
  · intro j a ha
    rw [hget] at ha
    split at ha
    · obtain rfl := Option.some.inj ha; exact he
    · exact h.entries j a ha
  · intro j k a b ha hb hab
    rw [hget] at ha hb
    split at ha <;> split at hb
    · simp_all
    · rename_i h1 h2
      obtain rfl := Option.some.inj ha
      exact absurd hab (hfree k b hb h2).1
    · rename_i h1 h2
      obtain rfl := Option.some.inj hb
      exact absurd hab.symm (hfree j a ha h1).1
    · exact h.outers j k a b ha hb hab
  · intro j k a b ha hb hab
    rw [hget] at ha hb
    split at ha <;> split at hb
    · simp_all
    · rename_i h1 h2
      obtain rfl := Option.some.inj ha
      exact absurd hab (hfree k b hb h2).2
    · rename_i h1 h2
      obtain rfl := Option.some.inj hb
      exact absurd hab.symm (hfree j a ha h1).2
    · exact h.inners j k a b ha hb hab
  · intro j k a b c ha hc hb hjk
    rw [hget] at ha hb
    split at ha
    · obtain rfl := Option.some.inj ha; simp [hp] at hc
    · split at hb
      · rename_i h1 h2
        obtain rfl := Option.some.inj hb
        exact hclaim j a c ha hc (fun x => h1 x.symm)
      · exact h.claims j k a b c ha hc hb hjk
  · intro j a ha hpend
    rw [hget] at ha
    split at ha
    · obtain rfl := Option.some.inj ha; simp [hp] at hpend
    · exact h.engaged j a ha hpend

/-- An entry emptied (R18). -/
theorem TableSound.clear {s : State} (h : TableSound s) (i : Fin 64) : TableSound (s.setEntry i none) := by
  have hget : ∀ j a, (s.setEntry i none).table.get j = some a → s.table.get j = some a := by
    intro j a ha
    rw [s.setEntry_get] at ha
    split at ha
    · simp at ha
    · exact ha
  exact ⟨h.policy, fun j a ha => h.entries j a (hget j a ha),
    fun j k a b ha hb => h.outers j k a b (hget j a ha) (hget k b hb),
    fun j k a b ha hb => h.inners j k a b (hget j a ha) (hget k b hb),
    fun j k a b c ha hc hb => h.claims j k a b c (hget j a ha) hc (hget k b hb),
    fun j a ha => h.engaged j a (hget j a ha)⟩

/-- The move to IDLE applies the pending update (R21). -/
theorem TableSound.moveToIdle {s : State} (h : TableSound s) : TableSound s.moveToIdle := by
  unfold State.moveToIdle
  split
  · exact h
  · rename_i g hg
    have hidx : s.engagedIndex = g.index := by simp [State.engagedIndex, hg]
    -- every entry but the engaged one has no pending update
    have hothers : ∀ j a, s.table.get j = some a → a.pending.isSome = true → g.index = some j := by
      intro j a ha hp
      rw [← hidx]; exact h.engaged j a ha hp
    -- soundness of a state whose table has no pending update at all
    have nopend : ∀ t : State, t.table = s.table → t.policy = s.policy →
        (∀ j a, s.table.get j = some a → a.pending.isSome = false) → TableSound t := by
      intro t ht hp hn
      refine ⟨by rw [hp]; exact h.policy, ?_, ?_, ?_, ?_, ?_⟩
      · rw [ht, hp]; exact h.entries
      · rw [ht]; exact h.outers
      · rw [ht]; exact h.inners
      · rw [ht]; exact h.claims
      · intro j a ha hpend
        rw [ht] at ha
        simp [hn j a ha] at hpend
    have fin : ∀ t : State, TableSound t → TableSound
        { t with device := if t.device = .drain then .standby else t.device } := by
      intro t ht
      exact ⟨ht.policy, ht.entries, ht.outers, ht.inners, ht.claims, ht.engaged⟩
    apply fin
    unfold State.applyPending
    split
    · rename_i j e hj he
      have he : s.table.get j = some e := by
        rw [hj] at he; exact he
      split
      · rename_i hpn
        refine nopend _ rfl rfl ?_
        intro k a ha
        cases hp : a.pending.isSome with
        | false => rfl
        | true =>
          have := hothers k a ha hp
          rw [hj] at this
          obtain rfl := Option.some.inj this
          rw [he] at ha
          obtain rfl := Option.some.inj ha
          simp [hpn] at hp
      · rename_i c hpc
        have hc := (h.entries j e he).pending c hpc
        have ha := applyWrite_sound (some e) c s.policy h.policy
          (fun x hx => by obtain rfl := Option.some.inj hx; exact h.entries j e he) hc
        have hput := h.put j _ ha.1 ha.2.2
          (fun k b hb hjk => by rw [ha.2.1]; exact h.claims j k e b c he hpc hb hjk)
          (fun k b x hb hx hkj => by
            have := hothers k b hb (by simp [hx])
            rw [hj] at this
            exact absurd (Option.some.inj this).symm hkj)
        refine ⟨hput.policy, hput.entries, hput.outers, hput.inners, hput.claims, ?_⟩
        intro k b hb hpend
        have hb : (s.setEntry j (some (applyWrite (some e) c s.policy.probeInterval))).table.get k = some b := hb
        rw [s.setEntry_get] at hb
        split at hb
        · obtain rfl := Option.some.inj hb
          simp [ha.2.2] at hpend
        · rename_i hjk
          have := hothers k b hb hpend
          rw [hj] at this
          exact absurd (Option.some.inj this) hjk
      · have hcl := h.clear j
        refine ⟨hcl.policy, hcl.entries, hcl.outers, hcl.inners, hcl.claims, ?_⟩
        intro k b hb hpend
        have hb : (s.setEntry j none).table.get k = some b := hb
        rw [s.setEntry_get] at hb
        split at hb
        · simp at hb
        · rename_i hjk
          have := hothers k b hb hpend
          rw [hj] at this
          exact absurd (Option.some.inj this) hjk
    · rename_i hnone
      refine nopend _ rfl rfl ?_
      intro k a ha
      cases hp : a.pending.isSome with
      | false => rfl
      | true =>
        have hk := hothers k a ha hp
        exact absurd (by rw [hk]; exact ha) (hnone k a hk)

theorem Tables.moveToIdle {s : State} (h : Tables s) : Tables s.moveToIdle := by
  refine ⟨h.sound.moveToIdle, ?_⟩
  intro g hg
  unfold State.moveToIdle at hg
  split at hg <;> simp_all

/-! ### Closing an engagement -/

theorem Tables.charge {s : State} (h : Tables s) (g : Engagement) (c : Statistics → Statistics) (k : OutcomeKind)
    (w : Option EventKind) (d : Half) : Tables (s.charge g c k w d) :=
  h.runtime (by simp) (.charge s h.sound.policy g c k w d) (by simp) (by simp) (by simp)

theorem Tables.creditAnswer {s : State} (h : Tables s) (g : Engagement) (v : Option Nat) :
    Tables (s.creditAnswer g v) :=
  h.runtime (by simp) (.creditAnswer s h.sound.policy g v) (by simp) (by simp) (by simp)

theorem Tables.endSettling {s : State} (h : Tables s) : Tables s.endSettling := by
  unfold State.endSettling
  repeat' split
  all_goals first
    | exact h
    | (dsimp only
       apply Tables.moveToIdle
       all_goals exact h.congr (by simp) (by simp) (by simp) (by simp) (by simp))

/-- A move to SETTLING, or to another state that needs nothing of the counters. -/
theorem Tables.setState {s : State} {g : Engagement} (h : Tables s) (hg : s.engagement = some g)
    (st : EngagementState) (hst : st ≠ .awaiting ∧ st ≠ .holding) (x : Option Word) (n : Option Half) :
    Tables { s with engagement := some { g with state := st, headArrival := x, seen := n } } := by
  refine ⟨h.sound.runtime rfl (.of_eq rfl) (by simp [State.engagedIndex, hg]), ?_⟩
  exact EngagedSound.step h.engaged (.of_eq rfl) hg rfl rfl rfl rfl rfl rfl (fun _ => hst)
    (fun _ _ _ _ hx => absurd hx hst.2) (fun _ _ _ _ hx => absurd hx hst.1)

theorem Tables.enterSettling {s : State} (h : Tables s) (b : Bool) : Tables (s.enterSettling b) := by
  unfold State.enterSettling
  split
  · exact h
  · rename_i g hg
    have h1 := h.setState hg (.settling b) (by simp) g.headArrival g.seen
    dsimp only
    split
    · exact h1.endSettling
    · exact h1

theorem Tables.closeRequest {s : State} (h : Tables s) (g : Engagement) (f : UpFrame) : Tables (s.closeRequest g f) :=
  Tables.moveToIdle (h.congr rfl rfl rfl rfl rfl)

end Sys2Proof.Machine
end

