-- ==== Sys2Proof/Laws/Pieces.lean ====
section
/-! SUPPORT. The staged operations of the model give the one-piece next states of Sys2Proof/Safety.lean. -/

namespace Sys2Proof.Machine

theorem EventQueue.post_eq (q : EventQueue) (r : EventRecord) : q.post r = q.postAll [r] := by
  have hs : satInc q.lost = if q.lost = 255 then 255 else q.lost + 1 := by
    have : BitVec.allOnes 8 = (255 : Byte) := rfl
    unfold satInc
    rw [this]
    split <;> simp_all
  simp only [EventQueue.post, EventQueue.postAll, Config.eventCapacity, hs]

theorem EventQueue.postAll_append (q : EventQueue) (a b : List EventRecord) :
    q.postAll (a ++ b) = (q.postAll a).postAll b := by
  induction a generalizing q with
  | nil => rfl
  | cons r a ih => exact ih _

theorem State.post_eq (s : State) (k : EventKind) (i : Option (Fin 64)) (o : Option Byte) (d : Half) :
    s.post k i o d = s.posting [s.eventNow k i o d] := by
  simp only [State.post, State.posting, EventQueue.post_eq, State.eventNow]

theorem State.posting_posting (s : State) (a b : List EventRecord) : (s.posting a).posting b = s.posting (a ++ b) := by
  simp [State.posting, EventQueue.postAll_append]

theorem State.enqueue_eq (s : State) (hw : s.works = true) (f : UpFrame) :
    s.enqueue f =
      { s with
        up := { s.up with frames := s.up.frames ++ [f] }
        uplinkTransmitter := uplinkAfter s.uplinkTransmitter (s.up.frames ++ [f]) s.events } := by
  have hw' : State.works { s with up := { s.up with frames := s.up.frames ++ [f] } } = true := hw
  simp only [State.enqueue, State.beginUplink, uplinkAfter, hw', if_true]
  congr 1

theorem State.admitExchange_eq (s : State) (hw : s.works = true) (f : UpFrame) :
    s.admitExchange f = s.answering [] f :=
  State.enqueue_eq { s with up := { s.up with exchangeHeld := false } } hw f

theorem State.posting_admit (s : State) (hw : s.works = true) (l : List EventRecord) (f : UpFrame) :
    (s.posting l).admitExchange f = s.answering l f :=
  State.admitExchange_eq (s.posting l) hw f

theorem State.reply_eq (s : State) (hw : s.works = true) (code : Byte) (r : Reply) :
    s.reply code r = s.replying code r.status.code r.detail r.results r.mark :=
  State.enqueue_eq { s with up := { s.up with managementHeld := false }, slot := none } hw
    (r.frame s.policy.gateAddress code)

theorem State.releaseExchange_eq (s : State) : s.releaseExchange = s.releasing := by
  have hm : State.managementAsks { s with up := { s.up with exchangeHeld := false } } = s.managementAsks := rfl
  unfold State.releaseExchange State.releasing
  dsimp only
  rw [hm]
  cases h : s.managementAsks <;> simp [State.grantManagement]

/-- A request in READY with the right length is carried out and answered. -/
theorem State.carryOut_ready {s : State} {code : Byte} {args : List Byte} (h : RequestReady s code args) (len : Nat)
    (act : State → List Byte → State × Reply) (hl : args.length + 1 = len) :
    s.carryOut code len act = (act s args).1.reply code (act s args).2 := by
  simp [State.carryOut, State.requestFor, State.managementReady, h.slot, h.place, h.works, hl]

/-- A request in READY of another length is answered BAD_LENGTH. -/
theorem State.carryOut_badLength {s : State} {code : Byte} {args : List Byte} (h : RequestReady s code args) (len : Nat)
    (act : State → List Byte → State × Reply) (hl : args.length + 1 ≠ len) :
    s.carryOut code len act = s.replying code 3 (BitVec.ofNat 16 (args.length + 1)) [] none := by
  simp only [State.carryOut, State.requestFor, State.managementReady, h.slot, h.place, h.works]
  simp [hl, State.reply_eq _ h.works, Reply.plain, ReplyStatus.code]

/-! ### Closing an engagement -/

theorem Table.set_set (t : Table) (j : Fin 64) (a b : Option Entry) :
    Vector.set (t.set j.val a) j.val b = t.set j.val b := by
  ext i hi
  by_cases h : j.val = i <;> simp [h]

theorem Table.set_get (t : Table) (j : Fin 64) (a : Option Entry) (h : t.get j = a) : t.set j.val a = t := by
  ext i hi
  by_cases hj : j.val = i
  · subst hj; simp [← h, Table.get_eq]
  · simp [hj]

theorem Engagement.eventOuter_some {g : Engagement} {j : Fin 64} (h : g.index = some j) : g.eventOuter = some g.outer
    := by
  simp [Engagement.eventOuter, h]

/-- The records of an event that may not have been brought about. -/
def State.ifRecord (s : State) (k : Option EventKind) (j : Fin 64) (o : Byte) (d : Half) : List EventRecord :=
  match k with
  | none => []
  | some k => [s.eventNow k (some j) (some o) d]

theorem State.postIf_eq (s : State) (k : Option EventKind) (j : Fin 64) (o : Byte) (d : Half) :
    s.postIf k (some j) (some o) d = s.posting (s.ifRecord k j o d) := by
  cases k with
  | none => rfl
  | some k => exact State.post_eq s k _ _ _

/-- A charged failure in one piece (R97 steps 1 and 2, R98). -/
theorem State.charge_eq {s : State} {g : Engagement} {j : Fin 64} {e : Entry} (hi : g.index = some j)
    (he : s.table.get j = some e) (c : Statistics → Statistics) (k : OutcomeKind) (own : Option EventKind) (d : Half) :
    s.charge g c k own d =
      { s with
        table := s.table.set j.val (some (e.failed s.policy c k))
        events := s.events.postAll (s.ifRecord own j g.outer d ++ e.strikeRecords s j g.outer) } := by
  have h1 : (Entry.strike (Entry.record { e with statistics := c e.statistics } k) s.policy).1 = e.failed s.policy c k
      := by
    unfold Entry.strike Entry.failed Entry.record
    by_cases ha : e.status = .enabled <;> by_cases hb : e.strikes + 1 = s.policy.strikeThreshold.toNat <;>
      cases hm : s.policy.mode <;> simp [ha, hb]
  have h2 : s.ifRecord (Entry.strike (Entry.record { e with statistics := c e.statistics } k) s.policy).2 j g.outer 0 =
      e.strikeRecords s j g.outer := by
    unfold Entry.strike Entry.strikeRecords Entry.record State.ifRecord
    by_cases ha : e.status = .enabled <;> by_cases hb : e.strikes + 1 = s.policy.strikeThreshold.toNat <;>
      cases hm : s.policy.mode <;> simp [ha, hb]
  have he' : s.entryAt (some j) = some e := he
  simp only [State.charge, hi, he', Engagement.eventOuter_some hi, State.postIf_eq, h1]
  rw [show ∀ t : State, t.ifRecord (Entry.strike (Entry.record { e with statistics := c e.statistics } k) s.policy).2 j
      g.outer 0 = (t.ifRecord (Entry.strike (Entry.record { e with statistics := c e.statistics } k) s.policy).2 j
          g.outer
      0) from fun _ => rfl]
  have h3 : ∀ l : List EventRecord, State.ifRecord ((s.setEntry j (some (e.failed s.policy c k))).posting l)
      (Entry.strike (Entry.record { e with statistics := c e.statistics } k) s.policy).2 j g.outer 0 =
      e.strikeRecords s j g.outer := by
    intro l; rw [← h2]; rfl
  rw [h3, State.posting_posting]
  rfl

/-- The move to IDLE in one piece (R97 step 5, R21, R158). -/
theorem State.moveToIdle_eq {s : State} {g : Engagement} {j : Fin 64} {e : Entry} (hg : s.engagement = some g)
    (hi : g.index = some j) (he : s.table.get j = some e) :
    s.moveToIdle =
      { s with
        device := if s.device = .drain then .standby else s.device
        engagement := none
        table := s.table.set j.val (e.updated s.policy.probeInterval)
        events := s.events.postAll (e.updateRecords s j) } := by
  have he' : State.entryAt { s with engagement := none } (some j) = some e := he
  unfold State.moveToIdle
  simp only [hg, hi, State.applyPending, he']
  cases hp : e.pending with
  | none => simp [Entry.updated, Entry.updateRecords, hp, Table.set_get s.table j (some e) he, EventQueue.postAll]
  | some u =>
    cases u with
    | write c => simp only [State.post_eq]; simp [Entry.updated, Entry.updateRecords, hp, State.posting,
        State.eventNow]; rfl
    | delete => simp only [State.post_eq]; simp [Entry.updated, Entry.updateRecords, hp, State.posting,
        State.eventNow]; rfl

theorem State.moveToIdle_broadcast {s : State} {g : Engagement} (hg : s.engagement = some g) (hi : g.index = none) :
    s.moveToIdle =
      { s with device := if s.device = .drain then .standby else s.device, engagement := none } := by
  unfold State.moveToIdle
  simp [hg, hi, State.applyPending]

theorem State.moveToIdle_empty {s : State} {g : Engagement} {j : Fin 64} (hg : s.engagement = some g)
    (hi : g.index = some j) (he : s.table.get j = none) :
    s.moveToIdle =
      { s with device := if s.device = .drain then .standby else s.device, engagement := none } := by
  have he' : State.entryAt { s with engagement := none } (some j) = none := he
  unfold State.moveToIdle
  simp [hg, hi, State.applyPending, he']

/-- A close to IDLE in one piece (R97): the outcome has set the entry and posted its records. -/
theorem State.closeRequest_eq {s : State} {g : Engagement} {j : Fin 64} (hw : s.works = true)
    (hg : s.engagement = some g) (hi : g.index = some j) (e : Entry) (l : List EventRecord) (f : UpFrame) :
    State.closeRequest { s with table := s.table.set j.val (some e), events := s.events.postAll l } g f =
      s.closing j e l f (s.closedNow j g.inner) := by
  unfold State.closeRequest
  rw [State.admitExchange_eq (s := { s with table := s.table.set j.val (some e), events := s.events.postAll l }) hw]
  refine (State.moveToIdle_eq (e := e) (g := g) (j := j) (by exact hg) hi ?_).trans ?_
  · show Vector.get (s.table.set j.val (some e)) j = some e
    rw [Table.get_set]; simp
  · simp [State.closing, State.answering, State.setLastClosed, hi, State.closedNow, EventQueue.postAll,
      Entry.updateRecords, State.eventNow]

theorem State.setLastClosed_fields (s : State) (g : Engagement) (b : Bool) :
    (if b then s.setLastClosed g else s) = { s with lastClosed := (if b then s.setLastClosed g else s).lastClosed } :=
        by
  cases b <;> rfl

theorem Entry.updateRecords_congr (e : Entry) {s t : State} (h : s.clock = t.clock) (j : Fin 64) :
    e.updateRecords s j = e.updateRecords t j := by
  simp [Entry.updateRecords, State.eventNow, h]

/-- The end of SETTLING in one piece (R102). -/
theorem State.endSettling_eq {s : State} {g : Engagement} {b : Bool}
    (hg : s.engagement = some { g with state := .settling b }) (x : Option Engagement) :
    s.endSettling = State.settled { s with engagement := x } g b := by
  unfold State.endSettling
  simp only [hg]
  have hm : ∀ l, State.managementAsks { s with lastClosed := l } = s.managementAsks := fun _ => rfl
  have hmx : State.managementAsks { s with engagement := x } = s.managementAsks := rfl
  rw [State.setLastClosed_fields]
  have hr : ∀ t : State, (if g.kind = .send then t.releaseExchange else t) = if g.kind = .send then t.releasing else t
      := by
    intro t; rw [State.releaseExchange_eq]
  rw [hr]
  cases hi : g.index with
  | none =>
    rw [State.moveToIdle_broadcast (g := { g with state := .settling b }) (by split <;> exact hg) hi]
    unfold State.settled
    simp only [hi]
    split <;> cases b <;> simp [State.setLastClosed, State.releasing] <;> rfl
  | some j =>
    cases he : s.table.get j with
    | none =>
      rw [State.moveToIdle_empty (g := { g with state := .settling b }) (j := j) (by split <;> exact hg) hi
        (by split <;> exact he)]
      unfold State.settled
      simp only [hi, he]
      split <;> cases b <;> simp [State.setLastClosed, State.releasing, State.closedNow] <;> rfl
    | some e =>
      rw [State.moveToIdle_eq (g := { g with state := .settling b }) (j := j) (e := e) (by split <;> exact hg) hi
        (by split <;> exact he)]
      unfold State.settled
      simp only [hi, he]
      have hu : ∀ t : State, t.clock = s.clock → e.updateRecords t j = e.updateRecords s j :=
        fun t h => e.updateRecords_congr h j
      split <;> cases b <;> simp [State.setLastClosed, State.releasing, State.closedNow, hu] <;> rfl

/-- The entry into SETTLING in one piece (R102). -/
theorem State.enterSettling_eq {s : State} {g : Engagement} (hg : s.engagement = some g) (b : Bool) :
    s.enterSettling b = s.settlingFrom g b := by
  unfold State.enterSettling State.settlingFrom
  simp only [hg]
  have hq : State.lineQuiet { s with engagement := some { g with state := .settling b } } =
      decide (s.policy.gapTime.toNat ≤ s.segment.silence) := rfl
  rw [hq]
  by_cases h : s.policy.gapTime.toNat ≤ s.segment.silence
  · simp only [h, decide_true, if_true]
    rw [State.endSettling_eq (g := g) (b := b) rfl s.engagement]
  · simp [h]

/-! ### The receiver's counters where a step was owed: what each form leaves alone -/

@[simp] theorem State.resumed_device (s : State) : s.resumed.device = s.device := rfl
@[simp] theorem State.resumed_policy (s : State) : s.resumed.policy = s.policy := rfl
@[simp] theorem State.resumed_uplinkRate (s : State) : s.resumed.uplinkRate = s.uplinkRate := rfl
@[simp] theorem State.resumed_segmentRate (s : State) : s.resumed.segmentRate = s.segmentRate := rfl
@[simp] theorem State.resumed_uplink (s : State) : s.resumed.uplink = s.uplink := rfl
@[simp] theorem State.resumed_uplinkTransmitter (s : State) : s.resumed.uplinkTransmitter = s.uplinkTransmitter := rfl
@[simp] theorem State.resumed_transmitter (s : State) : s.resumed.transmitter = s.transmitter := rfl
@[simp] theorem State.resumed_downQueue (s : State) : s.resumed.downQueue = s.downQueue := rfl
@[simp] theorem State.resumed_slot (s : State) : s.resumed.slot = s.slot := rfl
@[simp] theorem State.resumed_up (s : State) : s.resumed.up = s.up := rfl
@[simp] theorem State.resumed_table (s : State) : s.resumed.table = s.table := rfl
@[simp] theorem State.resumed_tablePointer (s : State) : s.resumed.tablePointer = s.tablePointer := rfl
@[simp] theorem State.resumed_engagement (s : State) : s.resumed.engagement = s.engagement := rfl
@[simp] theorem State.resumed_watch (s : State) : s.resumed.watch = s.watch := rfl
@[simp] theorem State.resumed_token (s : State) : s.resumed.token = s.token := rfl
@[simp] theorem State.resumed_lastClosed (s : State) : s.resumed.lastClosed = s.lastClosed := rfl
@[simp] theorem State.resumed_events (s : State) : s.resumed.events = s.events := rfl
@[simp] theorem State.resumed_clock (s : State) : s.resumed.clock = s.clock := rfl
@[simp] theorem State.resumed_freeCount (s : State) : s.resumed.freeCount = s.freeCount := rfl
@[simp] theorem State.resumed_pending (s : State) : s.resumed.pending = s.pending := rfl
@[simp] theorem State.resumed_segment_state (s : State) : s.resumed.segment.state = s.segment.state := rfl
@[simp] theorem State.resumed_segment_silence (s : State) : s.resumed.segment.silence = s.segment.silence := rfl
@[simp] theorem State.resumed_segment_midCharacter (s : State) :
    s.resumed.segment.midCharacter = s.segment.midCharacter := rfl
@[simp] theorem State.resumed_works (s : State) : s.resumed.works = s.works := rfl

@[simp] theorem State.cutOff_device (s : State) (st : ReceiverState) : (s.cutOff st).device = s.device := rfl
@[simp] theorem State.cutOff_policy (s : State) (st : ReceiverState) : (s.cutOff st).policy = s.policy := rfl
@[simp] theorem State.cutOff_uplinkRate (s : State) (st : ReceiverState) :
    (s.cutOff st).uplinkRate = s.uplinkRate := rfl
@[simp] theorem State.cutOff_segmentRate (s : State) (st : ReceiverState) :
    (s.cutOff st).segmentRate = s.segmentRate := rfl
@[simp] theorem State.cutOff_uplink (s : State) (st : ReceiverState) : (s.cutOff st).uplink = s.uplink := rfl
@[simp] theorem State.cutOff_uplinkTransmitter (s : State) (st : ReceiverState) :
    (s.cutOff st).uplinkTransmitter = s.uplinkTransmitter := rfl
@[simp] theorem State.cutOff_transmitter (s : State) (st : ReceiverState) :
    (s.cutOff st).transmitter = s.transmitter := rfl
@[simp] theorem State.cutOff_downQueue (s : State) (st : ReceiverState) : (s.cutOff st).downQueue = s.downQueue := rfl
@[simp] theorem State.cutOff_slot (s : State) (st : ReceiverState) : (s.cutOff st).slot = s.slot := rfl
@[simp] theorem State.cutOff_up (s : State) (st : ReceiverState) : (s.cutOff st).up = s.up := rfl
@[simp] theorem State.cutOff_table (s : State) (st : ReceiverState) : (s.cutOff st).table = s.table := rfl
@[simp] theorem State.cutOff_tablePointer (s : State) (st : ReceiverState) :
    (s.cutOff st).tablePointer = s.tablePointer := rfl
@[simp] theorem State.cutOff_engagement (s : State) (st : ReceiverState) :
    (s.cutOff st).engagement = s.engagement := rfl
@[simp] theorem State.cutOff_watch (s : State) (st : ReceiverState) : (s.cutOff st).watch = s.watch := rfl
@[simp] theorem State.cutOff_token (s : State) (st : ReceiverState) : (s.cutOff st).token = s.token := rfl
@[simp] theorem State.cutOff_lastClosed (s : State) (st : ReceiverState) :
    (s.cutOff st).lastClosed = s.lastClosed := rfl
@[simp] theorem State.cutOff_events (s : State) (st : ReceiverState) : (s.cutOff st).events = s.events := rfl
@[simp] theorem State.cutOff_clock (s : State) (st : ReceiverState) : (s.cutOff st).clock = s.clock := rfl
@[simp] theorem State.cutOff_freeCount (s : State) (st : ReceiverState) : (s.cutOff st).freeCount = s.freeCount := rfl
@[simp] theorem State.cutOff_pending (s : State) (st : ReceiverState) : (s.cutOff st).pending = s.pending := rfl
@[simp] theorem State.cutOff_owed (s : State) (st : ReceiverState) : (s.cutOff st).owed = s.owed := rfl
@[simp] theorem State.cutOff_state (s : State) (st : ReceiverState) : (s.cutOff st).segment.state = st := rfl
@[simp] theorem State.cutOff_works (s : State) (st : ReceiverState) : (s.cutOff st).works = s.works := rfl

@[simp] theorem State.recounted_device (s : State) (p : Policy) : (s.recounted p).device = s.device := rfl
@[simp] theorem State.recounted_policy (s : State) (p : Policy) : (s.recounted p).policy = s.policy := rfl
@[simp] theorem State.recounted_uplinkRate (s : State) (p : Policy) : (s.recounted p).uplinkRate = s.uplinkRate := rfl
@[simp] theorem State.recounted_segmentRate (s : State) (p : Policy) :
    (s.recounted p).segmentRate = s.segmentRate := rfl
@[simp] theorem State.recounted_uplink (s : State) (p : Policy) : (s.recounted p).uplink = s.uplink := rfl
@[simp] theorem State.recounted_uplinkTransmitter (s : State) (p : Policy) :
    (s.recounted p).uplinkTransmitter = s.uplinkTransmitter := rfl
@[simp] theorem State.recounted_transmitter (s : State) (p : Policy) :
    (s.recounted p).transmitter = s.transmitter := rfl
@[simp] theorem State.recounted_downQueue (s : State) (p : Policy) : (s.recounted p).downQueue = s.downQueue := rfl
@[simp] theorem State.recounted_slot (s : State) (p : Policy) : (s.recounted p).slot = s.slot := rfl
@[simp] theorem State.recounted_up (s : State) (p : Policy) : (s.recounted p).up = s.up := rfl
@[simp] theorem State.recounted_table (s : State) (p : Policy) : (s.recounted p).table = s.table := rfl
@[simp] theorem State.recounted_tablePointer (s : State) (p : Policy) :
    (s.recounted p).tablePointer = s.tablePointer := rfl
@[simp] theorem State.recounted_engagement (s : State) (p : Policy) : (s.recounted p).engagement = s.engagement := rfl
@[simp] theorem State.recounted_watch (s : State) (p : Policy) : (s.recounted p).watch = s.watch := rfl
@[simp] theorem State.recounted_token (s : State) (p : Policy) : (s.recounted p).token = s.token := rfl
@[simp] theorem State.recounted_lastClosed (s : State) (p : Policy) : (s.recounted p).lastClosed = s.lastClosed := rfl
@[simp] theorem State.recounted_events (s : State) (p : Policy) : (s.recounted p).events = s.events := rfl
@[simp] theorem State.recounted_clock (s : State) (p : Policy) : (s.recounted p).clock = s.clock := rfl
@[simp] theorem State.recounted_freeCount (s : State) (p : Policy) : (s.recounted p).freeCount = s.freeCount := rfl
@[simp] theorem State.recounted_pending (s : State) (p : Policy) : (s.recounted p).pending = s.pending := rfl
@[simp] theorem State.recounted_works (s : State) (p : Policy) : (s.recounted p).works = s.works := rfl

@[simp] theorem State.frameOver_device (s : State) : s.frameOver.device = s.device := rfl
@[simp] theorem State.frameOver_policy (s : State) : s.frameOver.policy = s.policy := rfl
@[simp] theorem State.frameOver_uplinkRate (s : State) : s.frameOver.uplinkRate = s.uplinkRate := rfl
@[simp] theorem State.frameOver_segmentRate (s : State) : s.frameOver.segmentRate = s.segmentRate := rfl
@[simp] theorem State.frameOver_uplink (s : State) : s.frameOver.uplink = s.uplink := rfl
@[simp] theorem State.frameOver_uplinkTransmitter (s : State) :
    s.frameOver.uplinkTransmitter = s.uplinkTransmitter := rfl
@[simp] theorem State.frameOver_transmitter (s : State) : s.frameOver.transmitter = s.transmitter := rfl
@[simp] theorem State.frameOver_downQueue (s : State) : s.frameOver.downQueue = s.downQueue := rfl
@[simp] theorem State.frameOver_slot (s : State) : s.frameOver.slot = s.slot := rfl
@[simp] theorem State.frameOver_up (s : State) : s.frameOver.up = s.up := rfl
@[simp] theorem State.frameOver_table (s : State) : s.frameOver.table = s.table := rfl
@[simp] theorem State.frameOver_tablePointer (s : State) : s.frameOver.tablePointer = s.tablePointer := rfl
@[simp] theorem State.frameOver_engagement (s : State) : s.frameOver.engagement = s.engagement := rfl
@[simp] theorem State.frameOver_watch (s : State) : s.frameOver.watch = s.watch := rfl
@[simp] theorem State.frameOver_token (s : State) : s.frameOver.token = s.token := rfl
@[simp] theorem State.frameOver_lastClosed (s : State) : s.frameOver.lastClosed = s.lastClosed := rfl
@[simp] theorem State.frameOver_events (s : State) : s.frameOver.events = s.events := rfl
@[simp] theorem State.frameOver_clock (s : State) : s.frameOver.clock = s.clock := rfl
@[simp] theorem State.frameOver_freeCount (s : State) : s.frameOver.freeCount = s.freeCount := rfl
@[simp] theorem State.frameOver_pending (s : State) : s.frameOver.pending = s.pending := rfl
@[simp] theorem State.frameOver_owed (s : State) : s.frameOver.owed = s.resumed.owed := rfl
@[simp] theorem State.frameOver_works (s : State) : s.frameOver.works = s.works := rfl

end Sys2Proof.Machine
end

