-- ==== Sys2Proof/Laws/PiecesEngine.lean ====
section
/-! SUPPORT. The Exchange Engine and the transmitters: staged operations as the one-piece next states of Sys2Proof/Safety.lean. -/

namespace Sys2Proof.Machine

/-- The outer address of an engagement's events is that of its record, unless it is a broadcast. -/
theorem Engagement.eventOuter_eq (g : Engagement) : g.eventOuter = g.index.map fun _ => g.outer := by
  unfold Engagement.eventOuter; cases g.index <;> rfl

/-- A frame given up in SENDING is answered after its record is posted (R85, R86). -/
theorem State.givingUp_eq (t : State) (hw : t.works = true) (g : Engagement) (l : List EventRecord) (r : Reason) (d : Half) :
    (t.posting l).answerIfOwed g (substitute g.outer r d) = t.givingUp g l r.code d := by
  unfold State.answerIfOwed State.givingUp
  split
  · rfl
  · rw [State.posting_admit _ hw]; rfl

/-- The end of SETTLING leaves the transmitter alone. -/
theorem State.settled_transmitter (t : State) (g : Engagement) (b : Bool) : (t.settled g b).transmitter = t.transmitter := by
  unfold State.settled
  by_cases hk : g.kind = .send
  · simp only [hk, if_true]
    cases g.index with
    | none => rfl
    | some j => cases h : t.table.get j <;> simp [State.releasing, h]
  · simp only [hk, if_false]
    cases g.index with
    | none => rfl
    | some j => cases h : t.table.get j <;> simp [h]

/-- The move to IDLE reads only the index of the record it discards. -/
theorem State.moveToIdle_index (t : State) {g1 g2 : Engagement} (h : g1.index = g2.index) :
    State.moveToIdle { t with engagement := some g1 } = State.moveToIdle { t with engagement := some g2 } := by
  unfold State.moveToIdle
  simp only [h]

/-- A damaged frame reported after the move to SETTLING has no effect (R102). -/
theorem State.settlingFrom_damaged (s : State) (g : Engagement) (b : Bool) (d : Damage) : (s.settlingFrom g b).engineFrame (.damaged d) = s.settlingFrom g b := by
  have h0 : ∀ t : State, (t.engagement = none ∨ ∃ g : Engagement, t.engagement = some g ∧ ∃ b, g.state = .settling b) → t.engineFrame (.damaged d) = t := by
    intro t ht
    unfold State.engineFrame
    split
    · rfl
    · rcases ht with h | ⟨g, h, b, hb⟩
      · simp [h]
      · simp [h, hb]
  apply h0
  unfold State.settlingFrom
  split
  · left
    unfold State.settled
    dsimp only
    split
    · rfl
    · split <;> rfl
  · right; exact ⟨_, rfl, b, rfl⟩

/-- A silence of two that is owed, as Sys2Proof/Safety.lean says it. -/
theorem State.fragmentOwed_iff (s : State) : s.fragmentOwed = decide s.SilenceOwed := by
  rw [Bool.eq_iff_iff, decide_eq_true_eq]
  unfold State.fragmentOwed State.segmentFragmentDue State.segmentFrames State.SilenceOwed
  cases hs : s.segment.state <;> simp [ReceiverState.isInFrame, and_assoc]

/-- A silence that is owed where a start bit or a character comes first, in one piece (R35, R48, R49). -/
theorem State.resumeRun_eq (s : State) : s.resumeRun = s.resumed := by
  unfold State.resumeRun State.resumed
  rw [State.fragmentOwed_iff]
  have hn : s.policy.jabberLimit.toNat ≤ s.segment.activity ↔ ¬ s.segment.activity < s.policy.jabberLimit.toNat :=
    Nat.not_lt.symm
  by_cases h : s.SilenceOwed <;> by_cases hl : s.segment.activity < s.policy.jabberLimit.toNat <;> simp [h, hl, hn]

/-- Where no silence of two is owed nothing is resumed. -/
theorem State.resumed_of_not {s : State} (h : ¬ s.SilenceOwed) : s.resumed = s := by
  unfold State.resumed
  rw [if_neg (fun hc => h hc.1), if_neg (fun hc => h hc.1)]

/-- While the transmitter holds the line no silence of two is owed (R26). -/
theorem State.resumed_of_holdsLine {s : State} (h : s.transmitter.holdsLine = true) : s.resumed = s :=
  State.resumed_of_not fun ho => by rw [ho.2.2.1] at h; exact nomatch h

/-- With no frame open no silence of two is owed (R35). -/
theorem State.resumed_of_noFrame {s : State} (h : ∀ f, s.segment.state ≠ .inFrame f) : s.resumed = s :=
  State.resumed_of_not fun ho => by
    cases hs : s.segment.state with
    | lineIdle => exact ho.2.2.2.1 hs
    | muted => exact ho.2.2.2.2.1 hs
    | inFrame f => exact h f hs

/-- The receiver whose frame is cut off, in one piece (R36, R46, R48). -/
theorem State.silenceCounted_eq (s : State) (st : ReceiverState) :
    ({ s with segment := { s.silenceCounted with state := st } } : State) =
      { s with segment := { s.segment with
        state := st
        silence := if s.SilenceOwed then 2 else s.segment.silence
        activity := if s.SilenceOwed then 0 else s.segment.activity } } := by
  unfold State.silenceCounted
  rw [State.fragmentOwed_iff]
  by_cases h : s.SilenceOwed
  · rw [if_pos (decide_eq_true h), if_pos h, if_pos h]
  · rw [if_neg (by simpa using h), if_neg h, if_neg h]

/-- The truncation order in one piece (R51). -/
theorem State.truncate_eq (s : State) : s.truncate = s.truncated := by
  have hc : ({ s with segment := { s.silenceCounted with state := .lineIdle } } : State) = s.cutOff .lineIdle := by
    rw [State.silenceCounted_eq]
    unfold State.cutOff
    by_cases h : s.SilenceOwed
    · rw [if_pos h, if_pos h, if_pos (.inl h)]
    · rw [if_neg h, if_neg h, if_neg (fun hc => hc.elim h (fun h' => nomatch h'))]
  cases hs : s.segment.state with
  | inFrame f => simp only [State.truncate, State.truncated, hs, hc]
  | lineIdle => simp only [State.truncate, State.truncated, hs]
  | muted => simp only [State.truncate, State.truncated, hs]

/-- The entry into MUTED cuts a frame off, in one piece (R49). -/
theorem State.muted_cutOff (s : State) :
    ({ s with segment := { s.silenceCounted with state := .muted, activity := 0 } } : State) = s.cutOff .muted := by
  unfold State.silenceCounted State.cutOff
  rw [State.fragmentOwed_iff]
  by_cases h : s.SilenceOwed
  · rw [if_pos (decide_eq_true h), if_pos h, if_pos (.inl h)]
  · rw [if_neg (by simpa using h), if_neg h, if_pos (.inr rfl)]

/-- A charged failure and its answer in one piece (R97). -/
theorem State.charge_answer {s : State} {g : Engagement} {j : Fin 64} {e : Entry} (hw : s.works = true) (hi : g.index = some j)
    (he : s.table.get j = some e) (c k own d f) :
    (s.charge g c k own d).admitExchange f = ({ s with table := s.table.set j.val (some (e.failed s.policy c k)) } : State).answering
      (s.ifRecord own j g.outer d ++ e.strikeRecords s j g.outer) f := by
  rw [State.charge_eq hi he]
  exact State.posting_admit { s with table := s.table.set j.val (some (e.failed s.policy c k)) } hw _ f

/-- The gate works on when a frame is given up. -/
theorem State.givingUp_works (t : State) (hw : t.works = true) (g l r d) : (t.givingUp g l r d).works = true := by
  unfold State.givingUp; split <;> exact hw

/-- The gate works on through SETTLING. -/
theorem State.settlingFrom_works (t : State) (hw : t.works = true) (g b) : (t.settlingFrom g b).works = true := by
  unfold State.settlingFrom
  split
  · have : (t.settled g b).device = if t.device = .drain then .standby else t.device := by
      unfold State.settled
      by_cases hk : g.kind = .send
      · simp only [hk, if_true]
        cases g.index with
        | none => rfl
        | some j => cases h : t.table.get j <;> simp [State.releasing, h]
      · simp only [hk, if_false]
        cases g.index with
        | none => rfl
        | some j => cases h : t.table.get j <;> simp [h]
    unfold State.works
    rw [this]
    split
    · rfl
    · exact hw
  · exact hw

/-- A change of runtime fields does not change what a DEST is translated to (R114). -/
theorem translateDest_congr {t : Table} {j : Fin 64} {e a : Entry} (h : t.get j = some e) (ha : a.config = e.config) (d : Byte) :
    translateDest (t.set j.val (some a)) d = translateDest t d := by
  have hg : ∀ i, Vector.get (t.set j.val (some a)) i = if j = i then some a else t.get i := by
    intro i; rw [Table.get_set]
  have hf : findInner (t.set j.val (some a)) d = findInner t d := by
    unfold findInner
    congr 1
    congr 1
    funext i
    rw [hg]
    by_cases hij : j = i
    · subst hij; simp [h, ha]
    · simp [hij]
  unfold translateDest
  rw [hf]
  split
  · rfl
  · cases findInner t d with
    | none => rfl
    | some i =>
      simp only [hg]
      by_cases hij : j = i
      · subst hij; simp [h, ha]
      · simp [hij]

/-- A valid entry changed in place. -/
theorem State.modifyEntry_eq {s : State} {i : Fin 64} {e : Entry} (h : s.table.get i = some e) (f : Entry → Entry) : s.modifyEntry (some i) f = { s with table := s.table.set i.val (some (f e)) } := by
  have : s.entryAt (some i) = some e := h
  simp only [State.modifyEntry, this]; rfl

/-- The idle uplink transmitter begins the head frame (R42, R43). -/
theorem State.beginUplink_eq (t : State) (hw : t.works = true) : t.beginUplink = { t with uplinkTransmitter := uplinkAfter t.uplinkTransmitter t.up.frames t.events } := by
  unfold State.beginUplink uplinkAfter
  simp only [hw, if_true]
  congr 1

/-- The waiting request of the Management Engine. -/
theorem managementAsks_iff (s : State) : s.managementAsks = true ↔ ManagementWaits s := by
  constructor
  · intro h
    simp [State.managementAsks] at h
    obtain ⟨⟨⟨h1, h2⟩, h3⟩, h4⟩ := h
    exact ⟨h4, h3, h1, h2⟩
  · intro h
    simp [State.managementAsks, h.works, h.noSoftReset, h.slot, h.place]

end Sys2Proof.Machine
end

