-- ==== Sys2Proof/Laws/PiecesAdmission.lean ====
section
/-! SUPPORT. The take and admission: staged operations as the one-piece next states of Sys2Proof/Safety.lean. -/

namespace Sys2Proof.Machine

/-- A refusal in one piece (R68, R76, R77). -/
theorem State.answerLocally_eq (s : State) (_hp : s.up.exchangeHeld = false) (hw : s.works = true) (f : DownFrame) (r : Reason) (d : Half) (l : List EventRecord) :
    (({ s with up := { s.up with exchangeHeld := true } } : State).posting l).answerLocally f r d = s.refusing f l r.code d := by
  unfold State.answerLocally State.refusing
  have e1 : (({ s with up := { s.up with exchangeHeld := true } } : State).posting l).admitExchange (substitute f.dest r d) = s.answering l (substituteOf f.dest r.code d) := by
    rw [State.posting_admit _ (by exact hw)]
    rfl
  cases hk : f.kind with
  | send =>
    rw [State.releaseExchange_eq]
    rfl
  | request => rw [if_neg (by simp)]; exact e1
  | grant => rw [if_neg (by simp)]; exact e1

/-- The take, with the frame it takes (R66, R67). -/
theorem State.takeHead_eq {s : State} {f rest} (h : MayTake s f rest) : s.takeHead =
    (if s.device = .standby then State.answerLocally { s with downQueue := rest, up := { s.up with exchangeHeld := true } } f .standby 0
     else State.examine { s with downQueue := rest, up := { s.up with exchangeHeld := true } } f) := by
  unfold State.takeHead
  rw [h.head]

/-- A refusal that concerns no entry (R69, R70, R76). -/
theorem State.refuse_none (s : State) (hp : s.up.exchangeHeld = false) (hw : s.works = true) (f : DownFrame) (o : Option Byte) (r : Reason) (n : Nat) :
    State.refuse { s with up := { s.up with exchangeHeld := true } } f none o r n = s.refusing f [s.eventNow .refused none o (codeDetail r.code)] r.code (refusalDetail r f n) := by
  unfold State.refuse State.recordRefusal
  rw [State.post_eq]
  exact State.answerLocally_eq s hp hw f r _ _

/-- A refusal counted on an entry (R76). -/
theorem State.refuse_some (s : State) (hp : s.up.exchangeHeld = false) (hw : s.works = true) (f : DownFrame) (i : Fin 64) (e : Entry) (he : s.table.get i = some e) (o : Option Byte) (r : Reason) (n : Nat) :
    State.refuse { s with up := { s.up with exchangeHeld := true } } f (some i) o r n =
      ({ s with table := s.table.set i.val (some e.refused) } : State).refusing f [s.eventNow .refused (some i) o (codeDetail r.code)] r.code (refusalDetail r f n) := by
  unfold State.refuse State.recordRefusal
  rw [State.post_eq]
  have h1 : State.modifyEntry { s with up := { s.up with exchangeHeld := true } } (some i) (fun e => { e with statistics := e.statistics.addRefused }.record .refused) =
     { s with up := { s.up with exchangeHeld := true }, table := s.table.set i.val (some e.refused) } := by
    have : State.entryAt { s with up := { s.up with exchangeHeld := true } } (some i) = some e := he
    simp only [State.modifyEntry, this]; rfl
  rw [h1]
  exact State.answerLocally_eq { s with table := s.table.set i.val (some e.refused) } hp hw f r _ _

/-- A frame handed over in RUN, in one piece (R52). -/
theorem State.handOver_eq (s : State) (hd : s.device = .run) (f : LineFrame) : s.handOver f = s.handing f := by
  have hm : s.maySend = true := by simp [State.maySend, hd]
  have hg : ∀ g, State.startIfReady { s with transmitter := .gapWait g } = if s.policy.gapTime.toNat ≤ s.segment.silence then
      { s with transmitter := .onLine g 0 0, segment := { s.segment with silence := 0, activity := 0 } }
    else { s with transmitter := .gapWait g } := by
    intro g
    unfold State.startIfReady
    have h1 : State.lineQuiet { s with transmitter := .gapWait g } = decide (s.policy.gapTime.toNat ≤ s.segment.silence) := rfl
    have h2 : State.maySend { s with transmitter := .gapWait g } = true := hm
    simp only [h1, h2]
    simp
  unfold State.handOver State.handing
  cases ht : s.transmitter <;> first | rfl | exact hg f

/-- A failure of check 5 or 6 is what the model finds. -/
theorem FailsChecks.reason {f : DownFrame} {e : Entry} {reason detail} (h : FailsChecks f e reason detail) :
    ∃ r, (checkClass f.kind e).or (checkSize f e) = some r ∧ r.code = reason ∧ refusalDetail r f 0 = detail := by
  rcases h with ⟨hk, hp, rfl, rfl⟩ | ⟨hk, hp, rfl, rfl⟩ | ⟨hk, hp, hl, rfl, rfl⟩ | ⟨hk, hp, hb, rfl, rfl⟩
  · refine ⟨.notPolled, ?_, rfl, rfl⟩
    cases hk' : f.kind <;> simp_all [checkClass, checkSize]
  · refine ⟨.tokenDenied, ?_, rfl, rfl⟩
    simp [checkClass, hk, hp]
  · refine ⟨.requestTooLong, ?_, rfl, rfl⟩
    cases hk' : f.kind <;> simp_all [checkClass, checkSize]
  · refine ⟨.tokenDenied, ?_, rfl, by simp [refusalDetail, hb]⟩
    simp [checkClass, checkSize, hk, hp, hb]

/-- A frame that passes checks 5 and 6 fails none in the model. -/
theorem PassesChecks.none {f : DownFrame} {e : Entry} (h : PassesChecks f e) : (checkClass f.kind e).or (checkSize f e) = none := by
  have h1 := h.polled; have h2 := h.token
  cases hk : f.kind <;> simp_all [checkClass, checkSize]

/-- A frame forwarded, in one piece (R75, R79, R80). -/
theorem State.forward_eq (s : State) (hd : s.device = .run) (f : DownFrame) (i : Fin 64) (e : Entry) (hdest : f.dest = e.config.outer) (p : Bool) (l : List EventRecord) :
    (({ s with up := { s.up with exchangeHeld := true } } : State).posting l).forward f i e p = s.forwarding f i e p l := by
  unfold State.forward
  dsimp only
  rw [State.handOver_eq _ (by unfold State.postClamp; repeat' (first | exact hd | split))]
  unfold State.forwarding
  have hc : (clampedBudget f e = budgetOf f.payload) ↔ ¬ e.config.tokenCap.toNat < (budgetOf f.payload).toNat := by
    unfold clampedBudget
    split
    · constructor
      · intro h; rw [h] at *; omega
      · intro h; omega
    · simp; omega
  by_cases hk : f.kind = .grant
  · by_cases hb : e.config.tokenCap.toNat < (budgetOf f.payload).toNat
    · have hcb : clampedBudget f e = e.config.tokenCap := by unfold clampedBudget; rw [if_pos hb]
      have hne : ¬ (clampedBudget f e = budgetOf f.payload) := by rw [hc]; simpa using hb
      have hne' : ¬ (e.config.tokenCap = budgetOf f.payload) := by rwa [hcb] at hne
      simp only [State.postClamp, hk, hb, openedEngagement, forwardedPayload, hcb, State.post_eq, State.posting_posting, hdest]
      simp [State.posting, State.eventNow, hne']
    · have hcb : clampedBudget f e = budgetOf f.payload := by unfold clampedBudget; rw [if_neg hb]
      simp only [State.postClamp, hk, hb, openedEngagement, forwardedPayload, hcb]
      simp [State.posting]
  · have h1 : (forwardedPayload f e) = f.payload := by unfold forwardedPayload; cases h : f.kind <;> simp_all
    have h2 : ∀ t : State, t.postClamp f i e = t := by intro t; unfold State.postClamp; cases h : f.kind <;> simp_all
    simp only [h1, h2, openedEngagement, hk]
    simp [State.posting]

/-- Forwarding reads the configuration alone. -/
theorem State.forwarding_config (s : State) (f i p l) {e e' : Entry} (h : e.config = e'.config) : s.forwarding f i e p l = s.forwarding f i e' p l := by
  unfold State.forwarding; rw [h]

end Sys2Proof.Machine
end

