-- ==== Sys2Proof/Laws/PiecesManagement.lean ====
section
/-! SUPPORT. Management: the rules of Sys2Proof/Safety.lean and the checks of the model, and the events of a policy write. -/

namespace Sys2Proof.Machine

/-- A yes/no character. -/
theorem flagByte_eq (b : Bool) : flagByte b = if b = true then 1 else 0 := by cases b <;> rfl

/-- The reservation places of a GET_STATE reply. -/
theorem UpQueue.placesByte_eq (s : State) (h : s.up.managementHeld = true) : s.up.placesByte = if s.up.exchangeHeld = true then 3 else 2 := by
  unfold UpQueue.placesByte; rw [h]; cases s.up.exchangeHeld <;> rfl

/-- A check as a rule with its code and the status of its failure. -/
def Check.asRule (c : Check) : Prop × Byte × Byte := (c.passes = true, c.code, c.status.code)

/-- Where every rule holds, no check fails. -/
theorem firstFailure_none {cs : List Check} {rs : List (Prop × Byte × Byte)} (h : rs = cs.map Check.asRule) (ha : AllHold rs) : firstFailure cs = none := by
  subst h
  unfold firstFailure
  rw [List.find?_eq_none]
  intro c hc
  have := ha c.asRule (List.mem_map_of_mem hc)
  simpa [Check.asRule] using this

/-- The first rule that fails is the first check that fails. -/
theorem firstFailure_some : ∀ {cs : List Check} {rs : List (Prop × Byte × Byte)} (_ : rs = cs.map Check.asRule) {code st} (_ : FirstFails rs code st), ∃ c, firstFailure cs = some c ∧ c.code = code ∧ c.status.code = st := by
  intro cs
  induction cs with
  | nil => rintro rs rfl code st ⟨b, r, a, h, _⟩; simp at h
  | cons c cs ih =>
    rintro rs rfl code st ⟨b, r, a, h, hb, hr⟩
    cases b with
    | nil =>
      simp only [List.map_cons, List.nil_append, List.cons.injEq, Check.asRule, Prod.mk.injEq] at h
      obtain ⟨⟨h1, h2, h3⟩, _⟩ := h
      refine ⟨c, ?_, h2, h3⟩
      unfold firstFailure
      rw [← h1] at hr
      simp [hr]
    | cons x b =>
      simp only [List.map_cons, List.cons_append, List.cons.injEq] at h
      obtain ⟨h1, h2⟩ := h
      have hx : c.passes = true := by
        have := hb x (by simp)
        rw [← h1] at this; exact this
      obtain ⟨d, h3, h4⟩ := ih rfl ⟨b, r, a, h2, fun r hr => hb r (by simp [hr]), hr⟩
      refine ⟨d, ?_, h4⟩
      unfold firstFailure at h3 ⊢
      simpa [List.find?_cons, hx] using h3

/-- The range of a rate step. -/
theorem Rate.legal_iff (r : Rate) : r.legal ↔ r.inRange = true := by
  unfold Rate.legal Rate.inRange; cases r.mode <;> simp

/-- Rule P7. -/
theorem outerInUse_iff (t : Table) (a : Byte) : (!outerInUse t a) = true ↔ ∀ i e, t.get i = some e → e.config.outer ≠ a := by
  unfold outerInUse
  simp only [Bool.not_eq_true', List.any_eq_false, List.mem_finRange, true_implies]
  constructor
  · intro h i e he; have := h i; rw [he] at this; simpa using this
  · intro h i; cases he : t.get i with
    | none => simp
    | some e => simpa using h i e he

/-- Rules P1 to P7 are the checks of the model. -/
theorem policyRules_eq (t : Table) (p : Policy) : policyRules t p = (policyChecks t p).map Check.asRule := by
  simp only [policyRules, policyChecks, List.map_cons, List.map_nil, Check.asRule, ReplyStatus.code, decide_eq_true_eq, outerInUse_iff, Bool.and_eq_true, Rate.legal_iff]

/-- A condition of the other entries (R15). -/
theorem otherEntry_iff (t : Table) (index : Byte) (P : Entry → Bool) : (!otherEntry t index P) = true ↔ ∀ (i : Fin 64) e, i.val ≠ index.toNat → t.get i = some e → P e = false := by
  unfold otherEntry
  simp only [Bool.not_eq_true', List.any_eq_false, List.mem_finRange, true_implies]
  constructor
  · intro h i e hi he; have := h i; rw [he] at this; simpa [hi] using this
  · intro h i; cases he : t.get i with
    | none => simp
    | some e => by_cases hi : i.val = index.toNat <;> simp [hi]; exact h i e hi he

/-- An outer address that an entry does not hold (R15). -/
theorem Entry.holdsOuter_iff (e : Entry) (a : Byte) : e.holdsOuter a = false ↔ e.config.outer ≠ a ∧ ∀ d, e.pending = some (.write d) → d.outer ≠ a := by
  unfold Entry.holdsOuter
  cases hp : e.pending with
  | none => simp
  | some u => cases u <;> simp

/-- An inner address that an entry does not hold (R15). -/
theorem Entry.holdsInner_iff (e : Entry) (a : Byte) : e.holdsInner a = false ↔ e.config.inner ≠ a ∧ ∀ d, e.pending = some (.write d) → d.inner ≠ a := by
  unfold Entry.holdsInner
  cases hp : e.pending with
  | none => simp
  | some u => cases u <;> simp

/-- Rules E1 to E10 are the checks of the model. -/
theorem entryRules_eq (t : Table) (g i : Byte) (c : Configuration) : entryRules t g i c = (entryChecks t g i c).map Check.asRule := by
  simp only [entryRules, entryChecks, List.map_cons, List.map_nil, Check.asRule, ReplyStatus.code, decide_eq_true_eq, Bool.or_eq_true, otherEntry_iff, Entry.holdsOuter_iff, Entry.holdsInner_iff]
  have e1 : (i.toNat ≤ 63) = (i.toNat < 64) := by simp only [eq_iff_iff]; omega
  rw [e1]
  congr 1
  congr 1
  congr 1
  congr 1
  congr 1
  congr 1
  · cases c.polled <;> simp
  congr 1
  · cases c.token <;> simp
  congr 1
  cases c.token <;> simp

/-- A character that is an index. -/
theorem toIndex_some {v : Byte} {i : Fin 64} (h : i.val = v.toNat) : toIndex v = some i := by
  unfold toIndex; rw [dif_pos (by omega)]; congr 1; exact Fin.ext h.symm

/-- A character above 63 is no index. -/
theorem toIndex_none {v : Byte} (h : 63 < v.toNat) : toIndex v = none := by
  unfold toIndex; rw [dif_neg (by omega)]

/-- The RELEASED events in one piece (R166). -/
theorem State.postReleased_eq (l : List (Fin 64 × Byte)) : ∀ s : State, s.postReleased l = s.posting (l.map fun r => s.eventNow .released (some r.1) (some r.2) 2) := by
  induction l with
  | nil => intro s; rfl
  | cons a l ih =>
    intro s
    show State.postReleased (s.post .released (some a.1) (some a.2) releasedByCommand) l = _
    rw [ih, State.post_eq, State.posting_posting]
    rfl

/-- The RELEASED records of a policy write (R166). -/
theorem State.releasedRecords_eq (s : State) (p : Policy) : (s.releasedBy p).map (fun r => s.eventNow .released (some r.1) (some r.2) 2) = s.releasedRecords p := by
  unfold State.releasedBy State.releasedRecords
  split
  · unfold barredEntries
    rw [List.map_filterMap]
    congr 1
    funext i
    cases hi : s.table.get i with
    | none => rfl
    | some e => by_cases hb : e.status = .barred <;> simp [hb]
  · rfl

/-- What a policy write does to an entry, in one piece (R166). -/
theorem Entry.underPolicy_eq (e : Entry) (p q : Policy) : e.underPolicy p q = e.repoliced p q := by
  obtain ⟨⟩ := e
  unfold Entry.underPolicy Entry.repoliced Entry.releaseBarred
  by_cases ht : p.strikeThreshold = q.strikeThreshold <;> by_cases hm : p.mode = .enforce ∧ q.mode = .observe <;> rename_i st _ _ _ _ _ _ _ _ <;> by_cases hb : st = .barred <;> simp [ht, hm, hb]

/-- The counters as a policy write finds them, in one piece (R46, R48, R165). -/
theorem State.recount_eq (s : State) (p : Policy) : s.recount p = s.recounted p := by
  have ite_iff {a b : Prop} [Decidable a] [Decidable b] (h : a ↔ b) (x y : Nat) :
      (if a then x else y) = if b then x else y := by by_cases hb : b <;> simp [h, hb]
  have hs : (s.recount p).segment = (s.recounted p).segment := by
    unfold State.recount State.recounted State.quietDue State.jabberDue State.segmentFrames State.sdrv
    dsimp only
    congr 1 <;> refine ite_iff ?_ _ _ <;> simp [and_assoc]
  have ho : (s.recount p).owed = (s.recounted p).owed := by
    unfold State.recount State.recounted
    refine List.filter_congr fun t _ => ?_
    by_cases h1 : s.policy.gapTime = p.gapTime <;> by_cases h2 : s.policy.jabberLimit = p.jabberLimit <;>
      cases t <;> simp [h1, h2]
  calc s.recount p = { s.recounted p with segment := (s.recount p).segment, owed := (s.recount p).owed } := rfl
    _ = s.recounted p := by rw [hs, ho]

end Sys2Proof.Machine
end

