-- ==== Sys2Proof/Laws/TablesEngine.lean ====
section
/-! SUPPORT. The Exchange Engine and admission keep the soundness of the table and of the engaged entry. -/

namespace Sys2Proof.Machine

theorem Tables.post {s : State} (h : Tables s) (k : EventKind) (i : Option (Fin 64)) (o : Option Byte) (d : Half) :
    Tables (s.post k i o d) := h.congr rfl rfl rfl rfl rfl

theorem Tables.admitExchange {s : State} (h : Tables s) (f : UpFrame) : Tables (s.admitExchange f) :=
  h.congr rfl rfl rfl rfl rfl

theorem Tables.count {s : State} (h : Tables s) (i : Option (Fin 64)) (f : Entry → Entry)
    (hf : ∀ e, (f e).config = e.config ∧ (f e).pending = e.pending ∧ (f e).status = e.status ∧
      (f e).strikes = e.strikes ∧ (f e).probeCountdown = e.probeCountdown ∧ (f e).dividerCount = e.dividerCount) :
    Tables (s.modifyEntry i f) :=
  h.runtime (by simp) (.count s i f hf) (by simp) (by simp) (by simp)

theorem Tables.judgeIdle {s : State} (h : Tables s) (f : Frame) : Tables (s.judgeIdle f) := by
  unfold State.judgeIdle State.stray
  split
  · exact h.post _ _ _ _
  · split
    · dsimp only
      split
      · exact h.post _ _ _ _
      · exact (h.post _ _ _ _).count _ _ fun e => ⟨rfl, rfl, rfl, rfl, rfl, rfl⟩
    · exact h.post _ _ _ _

theorem Tables.judgeResponse {s : State} (h : Tables s) (g : Engagement) (e : Ended) :
    Tables (s.judgeResponse g e) := by
  unfold State.judgeResponse State.closeDamaged State.closeRejected State.closeAnswered
  repeat' split
  · exact (h.charge _ _ _ _ _).closeRequest _ _
  · exact (h.charge _ _ _ _ _).closeRequest _ _
  · exact (h.charge _ _ _ _ _).closeRequest _ _
  · exact (h.creditAnswer _ _).closeRequest _ _

theorem Tables.offerPublication {s : State} (h : Tables s) (g : Engagement) (f : Frame) :
    Tables (s.offerPublication g f) := by
  unfold State.offerPublication
  split
  · exact h.post _ _ _ _
  · split
    · exact Tables.congr (h.count g.index (fun e => { e with statistics := e.statistics.addPublished }) fun e =>
        ⟨rfl, rfl, rfl, rfl, rfl, rfl⟩) rfl rfl rfl rfl rfl
    · exact h.post _ _ _ _

theorem Tables.seen {s : State} {g : Engagement} (h : Tables s) (hg : s.engagement = some g) (n : Option Half) :
    Tables { s with engagement := some { g with seen := n } } := by
  refine ⟨h.sound.runtime rfl (.of_eq rfl) (by simp [State.engagedIndex, hg]), ?_⟩
  refine EngagedSound.step h.engaged (.of_eq rfl) hg rfl rfl rfl rfl rfl rfl ?_
    (fun _ _ _ he hx => he.token hx) (fun _ _ _ he hx => he.watch hx)
  intro hn
  have := h.engaged g hg
  rw [hn] at this
  exact this.2

theorem Tables.advance {s : State} (h : Tables s) (i : Option (Fin 64)) :
    Tables (s.modifyEntry i Entry.advanceDivider) :=
  h.runtime (by simp) (.modifyEntry s i _ fun e => e.advanceDivider_keeps s.policy) (by simp) (by simp) (by simp)

theorem Tables.judgeHolding {s : State} {g : Engagement} (h : Tables s) (hg : s.engagement = some g) (e : Ended) :
    Tables (s.judgeHolding g e) := by
  unfold State.judgeHolding
  split
  · exact h.charge _ _ _ _ _
  · split
    · exact h.post _ _ _ _
    · split
      · have h1 := h.seen hg (g.seen.map satInc)
        unfold State.holderPublish
        dsimp only
        split
        · exact h1
        · split
          · exact (h1.advance _).offerPublication _ _
          · exact (h1.advance _).count _ _ fun e => ⟨rfl, rfl, rfl, rfl, rfl, rfl⟩
      · split
        · exact Tables.moveToIdle ((h.creditAnswer g none).admitExchange _)
        · exact h.charge _ _ _ _ _

theorem Tables.engineFrame {s : State} (h : Tables s) (e : Ended) : Tables (s.engineFrame e) := by
  unfold State.engineFrame State.stray
  split
  · exact h
  · split
    · split
      · exact h.judgeIdle _
      · exact h
    · split
      · split
        · exact h.post _ _ _ _
        · exact h
      · split
        · exact h.post _ _ _ _
        · exact h
      · exact h
      · exact h.judgeResponse _ _
      · exact h.judgeHolding (by assumption) _

theorem Tables.engineFrameIf {s : State} (h : Tables s) (e : Option Ended) : Tables (s.engineFrameIf e) := by
  unfold State.engineFrameIf
  split
  · exact h
  · exact h.engineFrame _

theorem Tables.engineHead {s : State} (h : Tables s) : Tables s.engineHead := by
  unfold State.engineHead
  split
  · exact h
  · split
    · exact h
    · rename_i g hg
      split
      · exact h.setState hg .receiving (by simp) (some s.clock) g.seen
      · exact h

theorem Tables.engineMuted {s : State} (h : Tables s) (d : Option Damage) : Tables (s.engineMuted d) := by
  unfold State.engineMuted State.closeJabber State.reclaimJabber
  split
  · exact h
  · split
    · exact h
    · split
      · exact ((h.charge _ _ _ _ _).admitExchange _).enterSettling _
      · exact ((h.charge _ _ _ _ _).admitExchange _).enterSettling _
      · exact ((h.charge _ _ _ _ _).admitExchange _).enterSettling _
      · exact h
      · exact h

theorem Tables.engineQuiet {s : State} (h : Tables s) : Tables s.engineQuiet := by
  unfold State.engineQuiet
  split
  · exact h
  · split
    · exact h
    · split
      · exact h.endSettling
      · exact h

/-- The completion of the forwarded frame (R84, R110): the counters start within their bounds. -/
theorem Tables.engineComplete {s : State} (h : Tables s) : Tables s.engineComplete := by
  unfold State.engineComplete
  split
  · exact h
  · rename_i g hg
    have h0 := h.engaged g hg
    split
    · split
      · rename_i hk
        refine ⟨h.sound.runtime rfl (.of_eq rfl) (by simp [State.engagedIndex, hg]), ?_⟩
        refine EngagedSound.step h.engaged (.of_eq rfl) hg rfl rfl rfl rfl rfl rfl ?_
          (fun _ _ _ _ hx => by simp at hx) (fun j e he hee _ => ⟨hk, ?_⟩)
        · intro hi
          rw [hi] at h0
          simp [hk] at h0
        · have hd := (h.sound.entries j e he).config.deadline
          rw [if_pos (hee.polled hk)] at hd
          show 0 < _
          omega
      · exact Tables.moveToIdle (h.congr (by simp) (by simp) (by simp) (by simp) (by simp))
      · rename_i hk
        refine ⟨h.sound.runtime rfl (.of_eq rfl) (by simp [State.engagedIndex, hg]), ?_⟩
        refine EngagedSound.step h.engaged (.of_eq rfl) hg rfl rfl rfl rfl rfl rfl ?_ (fun j e he hee _ => ?_)
          (fun _ _ _ _ hx => by simp at hx)
        · intro hi
          rw [hi] at h0
          simp [hk] at h0
        · obtain ⟨b, hb, h1, h2⟩ := hee.budget hk
          simp [hb, h1, h2]
    · exact h

theorem Tables.answerIfOwed {s : State} (h : Tables s) (g : Engagement) (f : UpFrame) : Tables (s.answerIfOwed g f) :=
  h.congr (by simp) (by simp) (by simp) (by simp) (by simp)

theorem Tables.engineEchoFault {s : State} (h : Tables s) (n : Nat) : Tables (s.engineEchoFault n) := by
  unfold State.engineEchoFault
  split
  · exact h
  · split
    · exact ((h.post _ _ _ _).answerIfOwed _ _).enterSettling _
    · exact h

theorem Tables.truncate {s : State} (h : Tables s) : Tables s.truncate :=
  h.congr (by simp) (by simp) (by simp) (by simp) (by simp)

theorem Tables.abandonEngagement {s : State} (h : Tables s) : Tables s.abandonEngagement := by
  unfold State.abandonEngagement
  split
  · exact h
  · dsimp only
    split
    · exact ((Tables.post (s := s.orderAbort) (h.congr rfl rfl rfl rfl rfl) _ _ _ _).answerIfOwed _ _).enterSettling _
    · exact ((h.post _ _ _ _).admitExchange _).enterSettling _
    · exact (((h.truncate.post _ _ _ _).admitExchange _).enterSettling _).engineFrameIf _
    · exact (((h.truncate.post _ _ _ _).admitExchange _).enterSettling _).engineFrameIf _
    · exact h

/-! ### Admission (chapter 4) -/

theorem findOuter_entry {t : Table} {a : Byte} {i : Fin 64} (h : findOuter t a = some i) :
    ∃ e, t.get i = some e ∧ e.config.outer = a := by
  unfold findOuter at h
  split at h
  · simp at h
  · have := List.find?_some h
    cases he : Vector.get t i with
    | none => simp [he] at this
    | some e => exact ⟨e, rfl, by simpa [he] using this⟩

theorem TableSound.recordRefusal {s : State} (h : TableSound s) (i : Option (Fin 64)) (o : Option Byte) (r : Reason)
    (b : Bool) : TableSound (s.recordRefusal i o r b) :=
  h.runtime (by simp)
    ((KeepsEntries.count s i (fun e => Entry.record { e with statistics := e.statistics.addRefused } .refused)
      fun _ => ⟨rfl, rfl, rfl, rfl, rfl, rfl⟩).trans (.of_eq rfl))
    (by simp [State.engagedIndex])

theorem TableSound.refuse {s : State} (h : TableSound s) (hg : s.engagement = none) (f : DownFrame)
    (i : Option (Fin 64)) (o : Option Byte) (r : Reason) (n : Nat) : Tables (s.refuse f i o r n) := by
  refine TableSound.idle ?_ (by simpa using hg)
  exact (h.recordRefusal i o r false).runtime (by simp [State.refuse]) (.of_eq (by simp [State.refuse]))
    (by simp [State.engagedIndex, State.refuse])

/-- The engagement opens on an entry that passed the checks that R79 and R80 rest on. -/
theorem TableSound.forward {s : State} (h : TableSound s) (hg : s.engagement = none) (f : DownFrame) (i : Fin 64)
    (e e0 : Entry) (b : Bool) (ht : s.table.get i = some e0) (hc : e0.config = e.config)
    (ho : e.config.outer = f.dest) (hk : checkClass f.kind e = none ∨ f.kind = .send)
    (hz : f.kind = .grant → checkSize f e = none) : Tables (s.forward f i e b) := by
  have hnp : ∀ j a, s.table.get j = some a → a.pending.isSome = false := by
    intro j a ha
    cases hp : a.pending.isSome with
    | false => rfl
    | true => have := h.engaged j a ha hp; simp [State.engagedIndex, hg] at this
  have htab : (s.forward f i e b).table = s.table := by simp
  have hpol : (s.forward f i e b).policy = s.policy := by simp
  have heng : (s.forward f i e b).engagement = some (openedEngagement f i e b s.clock) := by simp [State.forward]
  refine ⟨⟨by rw [hpol]; exact h.policy, ?_, ?_, ?_, ?_, ?_⟩, ?_⟩
  · rw [htab, hpol]; exact h.entries
  · rw [htab]; exact h.outers
  · rw [htab]; exact h.inners
  · rw [htab]; exact h.claims
  · intro j a ha hp
    rw [htab] at ha
    simp [hnp j a ha] at hp
  · intro g hx
    rw [heng] at hx
    obtain rfl := Option.some.inj hx
    have hs := (h.entries i e0 ht).config
    refine ⟨e0, by rw [htab]; exact ht, ?_, ?_, ?_, ?_, ?_, ?_⟩
    · rw [hc]; exact ho
    · rw [hc]; rfl
    · intro hr
      have hr : f.kind = .request := hr
      rcases hk with hk | hk
      · rw [hc]; simpa [checkClass, hr] using hk
      · simp [hr] at hk
    · intro hr
      have hr : f.kind = .grant := hr
      have hz := hz hr
      have htok : e.config.token = true := by
        rcases hk with hk | hk
        · simpa [checkClass, hr] using hk
        · simp [hr] at hk
      have hcap := hs.tokenCap
      rw [hc, if_pos htok] at hcap
      have hb : budgetOf f.payload ≠ 0 := by
        intro h0
        simp [checkSize, hr, h0] at hz
      refine ⟨clampedBudget f e, by simp [openedEngagement, hr], ?_, ?_⟩
      · unfold clampedBudget
        split
        · exact hcap
        · have : (budgetOf f.payload).toNat ≠ 0 := fun h0 => hb (BitVec.eq_of_toNat_eq (by simpa using h0))
          omega
      · rw [hc]
        unfold clampedBudget
        split <;> omega
    · intro hx; simp [openedEngagement] at hx
    · intro hx; simp [openedEngagement] at hx

theorem TableSound.forwardBroadcast {s : State} (h : TableSound s) (hg : s.engagement = none) (f : DownFrame)
    (hk : f.kind = .send) : Tables (s.forwardBroadcast f) := by
  have hnp : ∀ j a, s.table.get j = some a → a.pending.isSome = false := by
    intro j a ha
    cases hp : a.pending.isSome with
    | false => rfl
    | true => have := h.engaged j a ha hp; simp [State.engagedIndex, hg] at this
  have htab : (s.forwardBroadcast f).table = s.table := by simp
  have hpol : (s.forwardBroadcast f).policy = s.policy := by simp
  refine ⟨⟨by rw [hpol]; exact h.policy, ?_, ?_, ?_, ?_, ?_⟩, ?_⟩
  · rw [htab, hpol]; exact h.entries
  · rw [htab]; exact h.outers
  · rw [htab]; exact h.inners
  · rw [htab]; exact h.claims
  · intro j a ha hp
    rw [htab] at ha
    simp [hnp j a ha] at hp
  · intro g hx
    simp only [State.forwardBroadcast, State.handOver_frame] at hx
    obtain rfl := Option.some.inj hx
    exact ⟨hk, by simp, by simp⟩

theorem State.modifyEntry_valid {s : State} {i : Fin 64} {e : Entry} (ht : s.table.get i = some e)
    (f : Entry → Entry) : s.modifyEntry (some i) f = s.setEntry i (some (f e)) := by
  simp [State.modifyEntry, State.entryAt, ht]

theorem TableSound.countdown {s : State} (h : TableSound s) (i : Fin 64) (e : Entry) (ht : s.table.get i = some e)
    (n : Nat) (hn : 1 ≤ n ∧ n ≤ 255) : TableSound (s.setEntry i (some { e with probeCountdown := n })) :=
  h.runtime (by simp)
    (.setEntry s i e _ ht ⟨rfl, rfl, fun he =>
      ⟨he.config, he.disabled, he.barred, he.strikes, hn, he.divider, he.pending⟩⟩) (by simp [State.engagedIndex])

theorem checkClass_or {f : DownFrame} {e : Entry} (h : (checkClass f.kind e).or (checkSize f e) = none) :
    checkClass f.kind e = none ∧ checkSize f e = none := by
  cases hc : checkClass f.kind e <;> simp_all

theorem TableSound.admitChecked {s : State} (h : TableSound s) (hg : s.engagement = none) (f : DownFrame) (i : Fin 64)
    (e e0 : Entry) (b : Bool) (ht : s.table.get i = some e0) (hc : e0.config = e.config)
    (ho : e.config.outer = f.dest) : Tables (s.admitChecked f i e b) := by
  unfold State.admitChecked
  split
  · exact h.refuse hg _ _ _ _ _
  · rename_i hn
    have := checkClass_or hn
    exact h.forward hg f i e e0 b ht hc ho (.inl this.1) (fun _ => this.2)

theorem TableSound.admitEnforce {s : State} (h : TableSound s) (hg : s.engagement = none) (f : DownFrame) (i : Fin 64)
    (e : Entry) (ht : s.table.get i = some e) (ho : e.config.outer = f.dest) : Tables (s.admitEnforce f i e) := by
  have hcd := (h.entries i e ht).countdown
  have hpi : s.policy.probeInterval.toNat ≤ 255 := by have := s.policy.probeInterval.isLt; omega
  unfold State.admitEnforce
  split
  · exact h.refuse hg _ _ _ _ _
  · split
    · split
      · rw [State.modifyEntry_valid ht]
        exact (h.countdown i e ht _ ⟨h.policy.probeInterval, hpi⟩).admitChecked (by simpa using hg) f i e
          { e with probeCountdown := s.policy.probeInterval.toNat } true (by rw [State.setEntry_get]; simp) rfl ho
      · rw [State.modifyEntry_valid ht]
        exact (h.countdown i e ht _ ⟨by omega, by omega⟩).refuse (by simpa using hg) _ _ _ _ _
    · exact h.admitChecked hg f i e e _ ht rfl ho

/-- What OBSERVE lets through has passed the checks that R78 enforces in it. -/
theorem observe_passes {f : DownFrame} {e : Entry}
    (h : (observedFailures f e).find? (enforcedInObserve f.kind) = none) :
    (checkClass f.kind e = none ∨ f.kind = .send) ∧ (f.kind = .grant → checkSize f e = none) := by
  rw [List.find?_eq_none] at h
  constructor
  · cases hk : f.kind with
    | send => exact .inr rfl
    | request =>
      left
      cases hc : checkClass .request e with
      | none => rfl
      | some r =>
        have := h r (by simp [observedFailures, hk, hc])
        simp [checkClass] at hc
        simp [hk, ← hc.2, enforcedInObserve] at this
    | grant =>
      left
      cases hc : checkClass .grant e with
      | none => rfl
      | some r =>
        have := h r (by simp [observedFailures, hk, hc])
        simp [checkClass] at hc
        simp [← hc.2, enforcedInObserve] at this
  · intro hk
    cases hc : checkSize f e with
    | none => rfl
    | some r =>
      have := h r (by simp [observedFailures, hc])
      simp [checkSize, hk] at hc
      simp [← hc.2, enforcedInObserve] at this

theorem TableSound.admitObserve {s : State} (h : TableSound s) (hg : s.engagement = none) (f : DownFrame) (i : Fin 64)
    (e : Entry) (ht : s.table.get i = some e) (ho : e.config.outer = f.dest) : Tables (s.admitObserve f i e) := by
  unfold State.admitObserve
  split
  · exact h.refuse hg _ _ _ _ _
  · rename_i hn
    have hp := observe_passes hn
    split
    · refine (h.recordRefusal (some i) (some e.config.outer) _ true).forward (by simpa using hg) f i e
        (Entry.record { e with statistics := e.statistics.addRefused } .refused) false ?_ rfl ho hp.1 hp.2
      unfold State.recordRefusal
      show (s.modifyEntry _ _).table.get i = _
      rw [State.modifyEntry_get]
      simp [ht]
    · exact h.forward hg f i e e false ht rfl ho hp.1 hp.2

theorem TableSound.examine {s : State} (h : TableSound s) (hg : s.engagement = none) (f : DownFrame) :
    Tables (s.examine f) := by
  unfold State.examine
  split
  · split
    · rename_i hk
      exact h.forwardBroadcast hg f hk.1
    · exact h.refuse hg _ _ _ _ _
  · split
    · exact h.refuse hg _ _ _ _ _
    · rename_i i hi
      obtain ⟨e, he, ho⟩ := findOuter_entry hi
      split
      · exact h.refuse hg _ _ _ _ _
      · rename_i e' he'
        rw [he] at he'
        obtain rfl := Option.some.inj he'
        split
        · exact h.admitEnforce hg f i e he ho
        · exact h.admitObserve hg f i e he ho

/-- The take (R66, R67). -/
theorem Tables.takeHead {s : State} (h : Tables s) (hg : s.engagement = none) : Tables s.takeHead := by
  unfold State.takeHead
  split
  · exact h
  · rename_i f rest _
    have h1 : Tables { s with downQueue := rest, up := { s.up with exchangeHeld := true } } :=
      h.congr rfl rfl rfl rfl rfl
    dsimp only
    split
    · exact h1.congr (by simp) (by simp) (by simp) (by simp) (by simp)
    · exact h1.sound.examine hg f

end Sys2Proof.Machine
end

