-- ==== Sys2Proof/Laws/TablesCommands.lean ====
section
/-! SUPPORT. The ports, the timers and the management acts keep the soundness of the table and of the engaged entry. -/

namespace Sys2Proof.Machine

/-! ### The engine's own timers -/

theorem Tables.closeReport {s : State} (h : Tables s) (e : Option Ended) (b : Bool) (f : UpFrame) :
    Tables (((s.admitExchange f).enterSettling b).engineFrameIf e) :=
  ((h.admitExchange f).enterSettling b).engineFrameIf e

theorem Tables.expireDeadline {s : State} {g : Engagement} (h : Tables s) (hg : s.engagement = some g) : Tables
    (s.expireDeadline g) := by
  unfold State.expireDeadline
  dsimp only
  -- the watch counter stands at the deadline only inside the act: the engagement closes in it
  have h0 : TableSound { s with watch := s.engagedDeadline g } :=
    h.sound.runtime rfl (.of_eq rfl) (by simp [State.engagedIndex])
  have h1 : TableSound (({ s with watch := s.engagedDeadline g } : State).charge g Statistics.addSilent .silent
      (some .silent) (BitVec.ofNat 16 (s.engagedDeadline g))) :=
    h0.runtime (by simp) (.charge _ h0.policy g _ _ _ _) (by simp [State.engagedIndex])
  refine ⟨TableSound.moveToIdle (h1.runtime (by simp) (.of_eq (by simp)) (by simp [State.engagedIndex])), ?_⟩
  intro x hx
  unfold State.closeRequest State.moveToIdle at hx
  simp [hg] at hx

theorem Tables.expireToken {s : State} {g : Engagement} (h : Tables s) (hg : s.engagement = some g) :
    Tables (s.expireToken g) := by
  unfold State.expireToken
  dsimp only
  apply Tables.engineFrameIf
  have h0 : TableSound ({ s.truncate with token := 0 } : State) :=
    h.truncate.sound.runtime rfl (.of_eq rfl) (by simp [State.engagedIndex])
  have h1 : TableSound (({ s.truncate with token := 0 } : State).charge g Statistics.addReclaims .reclaimed
      (some .reclaimed) (g.seen.getD 0)) :=
    h0.runtime (by simp) (.charge _ h0.policy g _ _ _ _) (by simp [State.engagedIndex])
  generalize hu : (({ s.truncate with token := 0 } : State).charge g Statistics.addReclaims .reclaimed
      (some .reclaimed) (g.seen.getD 0)).admitExchange (returnFrame g.outer true 0) = u
  have hug : u.engagement = some g := by rw [← hu]; simpa using hg
  have h2 : TableSound u := by
    rw [← hu]; exact h1.runtime (by simp) (.of_eq (by simp)) (by simp [State.engagedIndex])
  have hidx : u.engagedIndex = g.index := by simp [State.engagedIndex, hug]
  have h3 : Tables { u with engagement := some { g with state := .settling false } } := by
    refine ⟨h2.runtime rfl (.of_eq rfl) (by simp [State.engagedIndex, hug]), ?_⟩
    have hk : KeepsEntries s.policy s { u with engagement := some { g with state := .settling false } } := by
      have hp : ({ s.truncate with token := 0 } : State).policy = s.policy := by simp
      have h4 : KeepsEntries s.policy s ({ s.truncate with token := 0 } : State) := .of_eq (by simp)
      have h5 := KeepsEntries.charge ({ s.truncate with token := 0 } : State) h0.policy g Statistics.addReclaims
        .reclaimed (some .reclaimed) (g.seen.getD 0)
      rw [hp] at h5
      refine (h4.trans h5).trans (.of_eq ?_)
      rw [← hu]
      simp
    exact EngagedSound.step h.engaged hk hg rfl rfl rfl rfl rfl rfl (fun _ => by simp)
      (fun _ _ _ _ hx => by simp at hx) (fun _ _ _ _ hx => by simp at hx)
  unfold State.enterSettling
  rw [hug]
  dsimp only
  split
  · exact h3.endSettling
  · exact h3

theorem Tables.takeDeadline {s : State} (h : Tables s) : Tables s.takeDeadline := by
  unfold State.takeDeadline State.deadlineDue
  split
  · exact h
  · rename_i g hd
    split at hd
    · simp at hd
    · split at hd
      · rename_i g' hg _
        simp at hd; subst hd
        exact h.expireDeadline hg
      · simp at hd

theorem Tables.takeToken {s : State} (h : Tables s) : Tables s.takeToken := by
  unfold State.takeToken State.tokenDue
  split
  · exact h
  · rename_i g hd
    split at hd
    · simp at hd
    · split at hd
      · rename_i g' hg _
        simp at hd; subst hd
        exact h.expireToken hg
      · simp at hd

/-! ### The ports -/

theorem Tables.startIfReady {s : State} (h : Tables s) : Tables s.startIfReady :=
  h.congr (by simp) (by simp) (by simp) (by simp) (by simp)

theorem Tables.enterMuted {s : State} (h : Tables s) : Tables s.enterMuted := by
  unfold State.enterMuted
  apply Tables.engineMuted
  apply Tables.post
  exact h.congr rfl rfl rfl rfl rfl

theorem Tables.takeJabber {s : State} (h : Tables s) : Tables s.takeJabber := by
  unfold State.takeJabber
  split
  · exact h.enterMuted
  · exact h

theorem Tables.takeQuiet {s : State} (h : Tables s) : Tables s.takeQuiet := by
  unfold State.takeQuiet State.becomeQuiet
  split
  · exact Tables.startIfReady (Tables.engineQuiet (by exact h.congr rfl rfl rfl rfl rfl))
  · exact h

theorem Tables.completeTransmission {s : State} (h : Tables s) : Tables s.completeTransmission :=
  Tables.engineComplete (h.congr rfl rfl rfl rfl rfl)

theorem Tables.faultEcho {s : State} (h : Tables s) (n : Nat) : Tables (s.faultEcho n) := by
  unfold State.faultEcho
  apply Tables.engineEchoFault
  exact h.congr rfl rfl rfl rfl rfl

theorem Tables.takeMissingEcho {s : State} (h : Tables s) : Tables s.takeMissingEcho := by
  unfold State.takeMissingEcho
  split
  · exact h.faultEcho _
  · exact h

theorem Tables.compareEcho {s : State} (h : Tables s) (c : LineChar) : Tables (s.compareEcho c) := by
  unfold State.compareEcho
  repeat' split
  · exact h.completeTransmission
  · exact h.congr rfl rfl rfl rfl rfl
  · exact h.faultEcho _
  · exact h

theorem Tables.takeAbortEnd {s : State} (h : Tables s) : Tables s.takeAbortEnd := by
  unfold State.takeAbortEnd
  split
  · exact Tables.startIfReady (h.congr rfl rfl rfl rfl rfl)
  · exact h

theorem Tables.judgeUplink {s : State} (h : Tables s) (e : Ended) : Tables (s.judgeUplink e) := by
  unfold State.judgeUplink State.uplinkWrongKind State.placeRequest State.joinDown
  repeat' split
  all_goals first
    | exact h.post _ _ _ _
    | (dsimp only; split <;> exact h.congr rfl rfl rfl rfl rfl)
    | exact h.congr rfl rfl rfl rfl rfl

theorem Tables.setUplinkFrame {s : State} (h : Tables s) (f : Option OpenFrame) : Tables (s.setUplinkFrame f) :=
  h.congr rfl rfl rfl rfl rfl

theorem Tables.fragmentUplink {s : State} (h : Tables s) : Tables s.fragmentUplink := by
  unfold State.fragmentUplink
  split
  · exact h
  · exact (h.setUplinkFrame _).judgeUplink _

theorem Tables.takeUplink {s : State} (h : Tables s) (c : LineChar) : Tables (s.takeUplink c) := by
  unfold State.takeUplink State.frameUplink
  have h1 : Tables s.hearUplink := h.congr rfl rfl rfl rfl rfl
  repeat' split
  · exact h1.fragmentUplink.setUplinkFrame _
  · exact h1
  · exact h1.setUplinkFrame _
  · exact (h1.setUplinkFrame _).judgeUplink _
  · exact h

theorem Tables.setReceiver {s : State} (h : Tables s) (r : ReceiverState) : Tables (s.setReceiver r) :=
  h.congr rfl rfl rfl rfl rfl

theorem Tables.fragmentSegment {s : State} (h : Tables s) : Tables s.fragmentSegment := by
  unfold State.fragmentSegment
  split
  · exact (h.setReceiver _).engineFrame _
  · exact h

theorem Tables.takeSegment {s : State} (h : Tables s) (c : LineChar) : Tables (s.takeSegment c) := by
  unfold State.takeSegment State.openSegment State.bodySegment
  have h2 : Tables s.resumeRun.hearSegment := h.congr rfl rfl rfl rfl rfl
  have h1 : Tables s.resumeRun.hearSegment.countRun := h2.congr rfl rfl rfl rfl rfl
  dsimp only
  repeat' split
  · exact h2.compareEcho _
  · exact h2
  · exact h2
  · exact (h1.fragmentSegment.setReceiver _).engineHead
  · exact h1.setReceiver _
  · exact (h1.setReceiver _).engineFrame _
  · exact h1
  · exact h

theorem Tables.takeUplinkFragment {s : State} (h : Tables s) : Tables s.takeUplinkFragment := by
  unfold State.takeUplinkFragment
  split
  · exact Tables.fragmentUplink (h.congr rfl rfl rfl rfl rfl)
  · exact h

theorem Tables.takeSegmentFragment {s : State} (h : Tables s) : Tables s.takeSegmentFragment := by
  unfold State.takeSegmentFragment
  split
  · exact Tables.fragmentSegment (h.congr rfl rfl rfl rfl rfl)
  · exact h

/-! ### Time -/

theorem Tables.takeThreshold {s : State} (h : Tables s) (t : Threshold) : Tables (s.takeThreshold t) := by
  cases t
  · exact h.takeDeadline
  · exact h.takeToken
  · exact h.takeJabber
  · exact h.takeQuiet
  · exact h.takeSegmentFragment
  · exact h.takeUplinkFragment
  · exact h.takeMissingEcho
  · exact h.takeAbortEnd

theorem Tables.settleOwed (n : Nat) : ∀ {s : State}, Tables s → Tables (State.settleOwed n s) := by
  induction n with
  | zero => intro s h; exact h.congr rfl rfl rfl rfl rfl
  | succ n ih =>
    intro s h
    unfold State.settleOwed
    split
    · exact h
    · exact Tables.takeThreshold (by exact h.congr rfl rfl rfl rfl rfl) _
    · exact ih (Tables.takeThreshold (by exact h.congr rfl rfl rfl rfl rfl) _)

/-- Time steps the counters within their bounds: the last step of each is a threshold of its own (R88, R109). -/
theorem Tables.passTime {s : State} (h : Tables s) : Tables s.passTime := by
  refine ⟨h.sound.runtime rfl (.of_eq rfl) rfl, ?_⟩
  intro g hg
  have hg0 : s.engagement = some g := hg
  refine EngagedSound.step (t := s.passTime) h.engaged (.of_eq rfl) hg0 hg rfl rfl rfl rfl rfl ?_ ?_ ?_ g hg
  · intro hn
    have := h.engaged g hg0
    rw [hn] at this
    exact this.2
  · intro j e _ he hs
    have := he.token hs
    show 1 ≤ s.tokenTick.1 ∧ s.tokenTick.1 ≤ _
    simp only [State.tokenTick, hg0, hs, if_true]
    split <;> simp_all; omega
  · intro j e he hee hs
    obtain ⟨hk, hw⟩ := hee.watch hs
    refine ⟨hk, ?_⟩
    show s.watchTick.1 < _
    have h1 := h.engaged g hg0
    cases hi : g.index with
    | none => rw [hi] at h1; simp [hs] at h1
    | some k =>
      rw [hi] at h1
      obtain ⟨e', he', hee'⟩ := h1
      have := h.sound.outers j k e e' he he' (by rw [hee.outer, hee'.outer])
      subst this
      rw [he] at he'
      obtain rfl := Option.some.inj he'
      have hd : s.engagedDeadline g = e.config.deadline.toNat := by
        simp [State.engagedDeadline, State.entryAt, hi, he]
      simp only [State.watchTick, hg0, hs, if_true, hd]
      split
      · exact hw
      · simp; omega

/-! ### The uplink and the resets -/

theorem Tables.grantFreed {s : State} (h : Tables s) (a b : Bool) (ha : a = true → s.engagement = none) :
    Tables (s.grantFreed a b) := by
  unfold State.grantFreed
  split
  · exact h
  · exact h.takeHead (ha rfl)
  · exact h.congr rfl rfl rfl rfl rfl
  · split
    · exact Tables.takeHead (h.congr rfl rfl rfl rfl rfl) (ha rfl)
    · exact h.congr rfl rfl rfl rfl rfl

theorem Entry.restart_sound (e : Entry) (p : Policy) (hp : p.Sound) (he : e.Sound p) :
    (e.restart p.probeInterval).Sound p :=
  Entry.fresh_sound e.config p hp he.config

theorem TableSound.restart {s t : State} (h : TableSound s) (hp : t.policy = s.policy)
    (ht : t.table = s.table.mapEntries (fun e => e.restart s.policy.probeInterval)) (hg : t.engagement = none) :
    Tables t := by
  have hget : ∀ j e', t.table.get j = some e' →
      ∃ e, s.table.get j = some e ∧ e' = e.restart s.policy.probeInterval := by
    intro j e' he'
    rw [ht, Table.get_mapEntries] at he'
    cases hs : s.table.get j with
    | none => simp [hs] at he'
    | some e => exact ⟨e, rfl, by simpa [hs] using he'.symm⟩
  refine TableSound.idle ⟨by rw [hp]; exact h.policy, ?_, ?_, ?_, ?_, ?_⟩ hg
  · intro j e' he'
    obtain ⟨e, he, rfl⟩ := hget j e' he'
    rw [hp]
    exact e.restart_sound _ h.policy (h.entries j e he)
  · intro i j a b ha hb hab
    obtain ⟨a0, ha0, rfl⟩ := hget i a ha
    obtain ⟨b0, hb0, rfl⟩ := hget j b hb
    exact h.outers i j a0 b0 ha0 hb0 hab
  · intro i j a b ha hb hab
    obtain ⟨a0, ha0, rfl⟩ := hget i a ha
    obtain ⟨b0, hb0, rfl⟩ := hget j b hb
    exact h.inners i j a0 b0 ha0 hb0 hab
  · intro i j a b c ha hc
    obtain ⟨a0, ha0, rfl⟩ := hget i a ha
    simp [Entry.restart, Entry.fresh] at hc
  · intro i e' he' hpend
    obtain ⟨e, he, rfl⟩ := hget i e' he'
    simp [Entry.restart, Entry.fresh] at hpend

theorem Policy.default_sound : Policy.default.Sound := by
  refine ⟨?_, ?_, ?_, ?_, ?_, ?_⟩ <;> decide

theorem Tables.reset {s : State} (hp : s.policy = Policy.default) (ht : s.table = Vector.replicate 64 none)
    (hg : s.engagement = none) : Tables s := by
  refine TableSound.idle ⟨by rw [hp]; exact Policy.default_sound, ?_, ?_, ?_, ?_, ?_⟩ hg <;>
    simp [ht]

theorem Tables.beginUplink {s : State} (h : Tables s) : Tables s.beginUplink := h.congr rfl rfl rfl rfl rfl

theorem Tables.completeUplink {s : State} (h : Tables s) : Tables s.completeUplink := by
  unfold State.completeUplink
  split
  · exact h.congr rfl rfl rfl rfl rfl
  · split
    · exact h.sound.restart rfl rfl rfl
    · refine Tables.beginUplink (Tables.grantFreed (by exact h.congr rfl rfl rfl rfl rfl) _ _ ?_)
      intro hx
      have : s.engagement = none := by
        simp [State.exchangeWaits, State.exchangeAsks] at hx
        exact hx.1.1.1.2
      exact this

/-! ### Management -/

theorem Tables.reply {s : State} (h : Tables s) (c : Byte) (r : Reply) : Tables (s.reply c r) :=
  h.congr rfl rfl rfl rfl rfl

theorem Tables.carryOut {s : State} (h : Tables s) (code : Byte) (len : Nat)
    (act : State → List Byte → State × Reply) (ha : ∀ args, Tables (act s args).1) : Tables (s.carryOut code len act)
        := by
  unfold State.carryOut
  split
  · exact h
  · dsimp only
    split
    · exact (ha _).reply _ _
    · exact h.reply _ _

theorem Tables.postReleased (l : List (Fin 64 × Byte)) : ∀ {s : State}, Tables s → Tables (s.postReleased l) := by
  induction l with
  | nil => intro s h; exact h
  | cons a l ih => intro s h; exact ih (h.post _ _ _ _)

/-- No pending update stands while no engagement is open (R19). -/
theorem TableSound.noPending {s : State} (h : TableSound s) (hg : s.engagement = none) {j : Fin 64} {a : Entry}
    (ha : s.table.get j = some a) : a.pending = none := by
  cases hp : a.pending with
  | none => rfl
  | some u => have := h.engaged j a ha (by simp [hp]); simp [State.engagedIndex, hg] at this

theorem policyChecks_sound {t : Table} {p : Policy} (h : firstFailure (policyChecks t p) = none) :
    p.Sound ∧ outerInUse t p.gateAddress = false := by
  simp [firstFailure, policyChecks] at h
  obtain ⟨h1, h2, h3, h4, h5, h6, h7⟩ := h
  exact ⟨⟨h1, h2, h3, h4, h5, h6⟩, h7⟩

theorem outerInUse_false {t : Table} {a : Byte} (h : outerInUse t a = false) {j : Fin 64} {e : Entry}
    (he : t.get j = some e) : e.config.outer ≠ a := by
  unfold outerInUse at h
  rw [List.any_eq_false] at h
  have := h j (List.mem_finRange j)
  simpa [he] using this

/-- An entry under a new policy (R166). -/
theorem Entry.underPolicy_sound {e : Entry} {old new : Policy} (he : e.Sound old) (hn : new.Sound)
    (hp : e.pending = none) (hg : e.config.outer ≠ new.gateAddress) : (e.underPolicy old new).Sound new := by
  have hc : e.config.Sound new.gateAddress :=
    ⟨he.config.outer, hg, he.config.inner, he.config.classes, he.config.maxRequest, he.config.maxResponse,
      he.config.deadline, he.config.tokenCap, he.config.publishDivider⟩
  have h1 := hn.strikeThreshold.1
  have h2 := he.disabled
  have h3 := he.barred
  have h4 := he.strikes
  have hm : new.mode = .enforce ∨ new.mode = .observe := by cases new.mode <;> simp
  have ho : old.mode = .enforce ∨ old.mode = .observe := by cases old.mode <;> simp
  unfold Entry.underPolicy Entry.releaseBarred
  dsimp only
  by_cases ht : old.strikeThreshold = new.strikeThreshold
  · rw [if_pos ht]
    split
    · rename_i hmo
      split
      · rename_i hb
        refine ⟨hc, ?_, ?_, ?_, he.countdown, he.divider, by simp [hp]⟩ <;> simp_all
        omega
      · refine ⟨hc, h2, ?_, by rw [← ht]; exact h4, he.countdown, he.divider, by simp [hp]⟩
        intro hb; contradiction
    · rename_i hmo
      refine ⟨hc, h2, ?_, by rw [← ht]; exact h4, he.countdown, he.divider, by simp [hp]⟩
      intro hb
      have := h3 hb
      rcases hm with hm | hm
      · exact hm
      · exact absurd ⟨this, hm⟩ hmo
  · rw [if_neg ht]
    split
    · rename_i hmo
      split
      · rename_i hb
        refine ⟨hc, ?_, ?_, ?_, he.countdown, he.divider, by simp [hp]⟩ <;> simp_all
        omega
      · refine ⟨hc, h2, ?_, by simp; omega, he.countdown, he.divider, by simp [hp]⟩
        intro hb; contradiction
    · rename_i hmo
      refine ⟨hc, h2, ?_, by simp; omega, he.countdown, he.divider, by simp [hp]⟩
      intro hb
      have := h3 hb
      rcases hm with hm | hm
      · exact hm
      · exact absurd ⟨this, hm⟩ hmo

theorem Entry.underPolicy_config (e : Entry) (old new : Policy) :
    (e.underPolicy old new).config = e.config ∧ (e.underPolicy old new).pending = e.pending := by
  unfold Entry.underPolicy Entry.releaseBarred
  dsimp only
  split <;> split <;> (try split) <;> exact ⟨rfl, rfl⟩

theorem TableSound.applyPolicy {s : State} (h : TableSound s) (hg : s.engagement = none) (p : Policy)
    (hc : firstFailure (policyChecks s.table p) = none) : Tables (s.applyPolicy p) := by
  obtain ⟨hp, hu⟩ := policyChecks_sound hc
  have hget : ∀ j e', ((s.recount p).replacePolicy p).table.get j = some e' →
      ∃ e, s.table.get j = some e ∧ e' = e.underPolicy s.policy p := by
    intro j e' he'
    have he' : Vector.get (s.table.mapEntries (fun e => e.underPolicy s.policy p)) j = some e' := he'
    rw [Table.get_mapEntries] at he'
    cases hs : s.table.get j with
    | none => simp [hs] at he'
    | some e => exact ⟨e, rfl, by simpa [hs] using he'.symm⟩
  have h0 : Tables ((s.recount p).replacePolicy p) := by
    refine TableSound.idle ⟨hp, ?_, ?_, ?_, ?_, ?_⟩ hg
    · intro j e' he'
      obtain ⟨e, he, rfl⟩ := hget j e' he'
      exact Entry.underPolicy_sound (h.entries j e he) hp (h.noPending hg he) (outerInUse_false hu he)
    · intro i j a b ha hb hab
      obtain ⟨a0, ha0, rfl⟩ := hget i a ha
      obtain ⟨b0, hb0, rfl⟩ := hget j b hb
      rw [(a0.underPolicy_config _ _).1, (b0.underPolicy_config _ _).1] at hab
      exact h.outers i j a0 b0 ha0 hb0 hab
    · intro i j a b ha hb hab
      obtain ⟨a0, ha0, rfl⟩ := hget i a ha
      obtain ⟨b0, hb0, rfl⟩ := hget j b hb
      rw [(a0.underPolicy_config _ _).1, (b0.underPolicy_config _ _).1] at hab
      exact h.inners i j a0 b0 ha0 hb0 hab
    · intro i j a b c ha hc
      obtain ⟨a0, ha0, rfl⟩ := hget i a ha
      rw [(a0.underPolicy_config _ _).2, h.noPending hg ha0] at hc
      simp at hc
    · intro i e' he' hpend
      obtain ⟨e, he, rfl⟩ := hget i e' he'
      rw [(e.underPolicy_config _ _).2, h.noPending hg he] at hpend
      simp at hpend
  have h1 : Tables ((s.recount p).replacePolicy p).requiet := by
    unfold State.requiet
    split
    · exact h0.congr rfl rfl rfl rfl rfl
    · exact h0
  unfold State.applyPolicy State.postWritten
  split
  · split
    · exact h1.enterMuted
    · dsimp only
      split
      · exact Tables.postReleased _ (Tables.enterMuted (h1.congr rfl rfl rfl rfl rfl))
      · exact Tables.enterMuted (Tables.postReleased _ (h1.congr rfl rfl rfl rfl rfl))
  · exact Tables.postReleased _ h1

theorem otherEntry_false {t : Table} {b : Byte} {p : Entry → Bool} (h : otherEntry t b p = false) {j : Fin 64}
    {e : Entry} (he : t.get j = some e) (hj : j.val ≠ b.toNat) : p e = false := by
  unfold otherEntry at h
  rw [List.any_eq_false] at h
  have := h j (List.mem_finRange j)
  simpa [he, hj] using this

theorem toIndex_val {b : Byte} {i : Fin 64} (h : toIndex b = some i) : i.val = b.toNat := by
  unfold toIndex at h
  split at h
  · have := Option.some.inj h; rw [← this]
  · simp at h

/-- What checks E1 to E10 give (R14, R15). -/
theorem entryChecks_sound {t : Table} {g b : Byte} {c : Configuration} {i : Fin 64} (hi : toIndex b = some i)
    (h : firstFailure (entryChecks t g b c) = none) : c.stored.Sound g ∧
      ∀ j e, t.get j = some e → j ≠ i → e.holdsOuter c.outer = false ∧ e.holdsInner c.inner = false := by
  simp only [firstFailure, entryChecks] at h
  rw [List.find?_eq_none] at h
  simp only [List.mem_cons, List.not_mem_nil, or_false, forall_eq_or_imp, forall_eq] at h
  obtain ⟨-, h2, h3, h4, h5, h6, h7, h8, h9, h10⟩ := h
  simp only [Bool.not_eq_true, Bool.not_eq_false', decide_eq_true_eq] at h2 h3 h4 h5 h6 h7 h8 h9 h10
  constructor
  · refine ⟨h2.1, h2.2, h3, by simpa [Configuration.stored] using h4, h5.1, h5.2, ?_, ?_, ?_⟩
    · simp only [Configuration.stored]
      split <;> simp_all
    · simp only [Configuration.stored]
      split <;> simp_all
    · simp only [Configuration.stored]
      split <;> simp_all
  · intro j e he hj
    have hv : j.val ≠ b.toNat := by
      rw [← toIndex_val hi]
      exact fun hh => hj (Fin.ext hh)
    exact ⟨by simpa using otherEntry_false (by simpa using h9) he hv,
      by simpa using otherEntry_false (by simpa using h10) he hv⟩

theorem Entry.holdsOuter_false {e : Entry} {a : Byte} (h : e.holdsOuter a = false) :
    e.config.outer ≠ a ∧ ∀ c, e.pending = some (.write c) → c.outer ≠ a := by
  unfold Entry.holdsOuter at h
  rw [Bool.or_eq_false_iff] at h
  refine ⟨by simpa using h.1, ?_⟩
  intro c hc
  have := h.2
  rw [hc] at this
  simpa using this

theorem Entry.holdsInner_false {e : Entry} {a : Byte} (h : e.holdsInner a = false) :
    e.config.inner ≠ a ∧ ∀ c, e.pending = some (.write c) → c.inner ≠ a := by
  unfold Entry.holdsInner at h
  rw [Bool.or_eq_false_iff] at h
  refine ⟨by simpa using h.1, ?_⟩
  intro c hc
  have := h.2
  rw [hc] at this
  simpa using this

/-- A change of one entry that the engagement does not name keeps the engaged entry. -/
theorem EngagedSound.elsewhere {s : State} (h : EngagedSound s) (i : Fin 64) (o : Option Entry)
    (hi : s.engagedIndex ≠ some i) : EngagedSound (s.setEntry i o) := by
  intro g hg
  have hg : s.engagement = some g := hg
  have h0 := h g hg
  cases hx : g.index with
  | none => rw [hx] at h0; exact h0
  | some j =>
    rw [hx] at h0
    obtain ⟨e, he, hee⟩ := h0
    refine ⟨e, ?_, hee.outer, hee.inner, hee.polled, hee.budget, hee.token, hee.watch⟩
    rw [State.setEntry_get, if_neg]
    · exact he
    · rintro rfl
      simp [State.engagedIndex, hg, hx] at hi

/-- A change of one entry that keeps its configuration keeps the engaged entry. -/
theorem EngagedSound.sameConfig {s : State} (h : EngagedSound s) (i : Fin 64) (e e' : Entry)
    (he : s.table.get i = some e) (hc : e'.config = e.config) : EngagedSound (s.setEntry i (some e')) := by
  intro g hg
  have hg : s.engagement = some g := hg
  have h0 := h g hg
  cases hx : g.index with
  | none => rw [hx] at h0; exact h0
  | some j =>
    rw [hx] at h0
    obtain ⟨e0, he0, hee⟩ := h0
    by_cases hij : i = j
    · subst hij
      rw [he] at he0
      obtain rfl := Option.some.inj he0
      refine ⟨e', by rw [State.setEntry_get]; simp, ?_, ?_, ?_, ?_, ?_, ?_⟩
      · rw [hc]; exact hee.outer
      · rw [hc]; exact hee.inner
      · rw [hc]; exact hee.polled
      · rw [hc]; exact hee.budget
      · rw [hc]; exact hee.token
      · rw [hc]; exact hee.watch
    · refine ⟨e0, ?_, hee.outer, hee.inner, hee.polled, hee.budget, hee.token, hee.watch⟩
      rw [State.setEntry_get, if_neg hij]
      exact he0

/-- The engaged entry holds an update whose addresses no other entry has (R19). -/
theorem Tables.holdUpdate {s : State} (h : Tables s) (i : Fin 64) (u : PendingUpdate) (hi : s.engagedIndex = some i)
    (hu : ∀ c, u = .write c → c.Sound s.policy.gateAddress ∧
      ∀ j b, s.table.get j = some b → j ≠ i → c.outer ≠ b.config.outer ∧ c.inner ≠ b.config.inner) :
    Tables (s.holdUpdate i u) := by
  unfold State.holdUpdate
  cases he : s.table.get i with
  | none =>
    have : s.modifyEntry (some i) (fun e => { e with pending := some u }) = s := by
      simp [State.modifyEntry, State.entryAt, he]
    rw [this]; exact h
  | some e =>
    rw [State.modifyEntry_valid he]
    have hes := h.sound.entries i e he
    have hget : ∀ j, (s.setEntry i (some { e with pending := some u })).table.get j =
        if i = j then some { e with pending := some u } else s.table.get j := fun j => s.setEntry_get i j _
    refine ⟨⟨h.sound.policy, ?_, ?_, ?_, ?_, ?_⟩, h.engaged.sameConfig i e _ he rfl⟩
    · intro j a ha
      rw [hget] at ha
      split at ha
      · obtain rfl := Option.some.inj ha
        exact ⟨hes.config, hes.disabled, hes.barred, hes.strikes, hes.countdown, hes.divider,
          fun c hc => (hu c (by simpa using hc)).1⟩
      · exact h.sound.entries j a ha
    · intro j k a b ha hb hab
      rw [hget] at ha hb
      split at ha <;> split at hb
      · simp_all
      · obtain rfl := Option.some.inj ha
        rename_i h1 h2; subst h1
        exact h.sound.outers _ _ e b he hb hab
      · obtain rfl := Option.some.inj hb
        rename_i h1 h2; subst h2
        exact h.sound.outers _ _ a e ha he hab
      · exact h.sound.outers j k a b ha hb hab
    · intro j k a b ha hb hab
      rw [hget] at ha hb
      split at ha <;> split at hb
      · simp_all
      · obtain rfl := Option.some.inj ha
        rename_i h1 h2; subst h1
        exact h.sound.inners _ _ e b he hb hab
      · obtain rfl := Option.some.inj hb
        rename_i h1 h2; subst h2
        exact h.sound.inners _ _ a e ha he hab
      · exact h.sound.inners j k a b ha hb hab
    · intro j k a b c ha hc hb hjk
      rw [hget] at ha hb
      split at ha
      · obtain rfl := Option.some.inj ha
        rename_i h1; subst h1
        rw [if_neg hjk] at hb
        exact (hu c (by simpa using hc)).2 k b hb (Ne.symm hjk)
      · split at hb
        · obtain rfl := Option.some.inj hb
          rename_i h1 h2; subst h2
          exact h.sound.claims j _ a e c ha hc he hjk
        · exact h.sound.claims j k a b c ha hc hb hjk
    · intro j a ha hpend
      rw [hget] at ha
      split at ha
      · rename_i h1; subst h1
        exact hi
      · exact h.sound.engaged j a ha hpend

theorem Tables.writeEntry {s : State} (h : Tables s) (b : Byte) (i : Fin 64) (c : Configuration)
    (hi : toIndex b = some i) (hc : firstFailure (entryChecks s.table s.policy.gateAddress b c) = none) :
    Tables (s.writeEntry i c.stored).1 := by
  obtain ⟨hs, ho⟩ := entryChecks_sound hi hc
  unfold State.writeEntry
  split
  · rename_i hx
    refine h.holdUpdate i _ hx ?_
    intro c' hc'
    simp only [PendingUpdate.write.injEq] at hc'
    subst hc'
    refine ⟨hs, ?_⟩
    intro j b' hb' hj
    have := ho j b' hb' hj
    exact ⟨((Entry.holdsOuter_false this.1).1).symm, ((Entry.holdsInner_false this.2).1).symm⟩
  · rename_i hx
    have ha := applyWrite_sound (s.table.get i) c.stored s.policy h.sound.policy (fun e he => h.sound.entries i e he) hs
    refine ⟨h.sound.put i _ ha.1 ha.2.2 ?_ ?_, h.engaged.elsewhere i _ hx⟩
    · intro j b' hb' hj
      rw [ha.2.1]
      have := ho j b' hb' (Ne.symm hj)
      exact ⟨((Entry.holdsOuter_false this.1).1).symm, ((Entry.holdsInner_false this.2).1).symm⟩
    · intro j b' c' hb' hp hj
      rw [ha.2.1]
      have := ho j b' hb' hj
      exact ⟨(Entry.holdsOuter_false this.1).2 c' hp, (Entry.holdsInner_false this.2).2 c' hp⟩

theorem Tables.clearEntry {s : State} (h : Tables s) (i : Fin 64) (hi : s.engagedIndex ≠ some i) :
    Tables (s.setEntry i none) :=
  ⟨h.sound.clear i, h.engaged.elsewhere i _ hi⟩

theorem Tables.setRuntime {s : State} (h : Tables s) (i : Fin 64) (e e' : Entry) (he : s.table.get i = some e)
    (hf : e'.config = e.config ∧ e'.pending = e.pending ∧ (e.Sound s.policy → e'.Sound s.policy)) :
    Tables (s.setEntry i (some e')) :=
  h.runtime rfl (.setEntry s i e e' he hf) rfl rfl rfl

theorem Tables.clearStats {s : State} (h : Tables s) :
    Tables { s with table := s.table.mapEntries Entry.clearStats } := by
  refine h.runtime rfl ?_ rfl rfl rfl
  intro j
  show match s.table.get j, Vector.get (Table.mapEntries s.table Entry.clearStats) j with
    | none, none => True
    | some e, some e' => e'.config = e.config ∧ e'.pending = e.pending ∧ (e.Sound s.policy → e'.Sound s.policy)
    | none, some _ => False
    | some _, none => False
  rw [Table.get_mapEntries]
  cases s.table.get j with
  | none => simp
  | some e => exact ⟨rfl, rfl, fun he => he.of_fields rfl rfl rfl rfl rfl rfl⟩

end Sys2Proof.Machine
end

