-- ==== Sys2Proof/Laws/Time.lean ====
section
/-! SUPPORT. What one character time owes: the steps that `State.passTime` leaves to their commands, one counter at a
time. -/

namespace Sys2Proof.Machine

/-- The uplink silence count owes the end of a fragment and nothing else. -/
theorem UplinkReceiver.tick_owed (r : UplinkReceiver) : ∀ x ∈ r.tick.2, x = .uplinkFragment := by
  unfold UplinkReceiver.tick
  repeat' (first | split | simp)

/-- The silence counter owes the end of a fragment or the quiet line. -/
theorem silenceTick_owed (r : SegmentReceiver) (d : Bool) (gap : Nat) :
    ∀ x ∈ (silenceTick r d gap).2, x = .segmentFragment ∨ x = .quiet := by
  unfold silenceTick
  repeat' (first | split | simp)

/-- The activity counter owes JABBER. -/
theorem activityTick_owed (r : SegmentReceiver) (h : Bool) (limit : Nat) : ∀ x ∈ (activityTick r h limit).2, x = .jabber := by
  unfold activityTick
  repeat' (first | split | simp)

/-- The transmitter owes a missing echo or the end of an abort procedure. -/
theorem SegmentTransmitter.tick_owed (t : SegmentTransmitter) : ∀ x ∈ t.tick.2, x = .missingEcho ∨ x = .abortEnd := by
  unfold SegmentTransmitter.tick
  repeat' (first | split | simp)

/-- The watch counter owes the deadline. -/
theorem State.watchTick_owed (s : State) : ∀ x ∈ s.watchTick.2, x = .deadline := by
  unfold State.watchTick
  repeat' (first | split | simp)

/-- The token counter owes the expiry. -/
theorem State.tokenTick_owed (s : State) : ∀ x ∈ s.tokenTick.2, x = .token := by
  unfold State.tokenTick
  repeat' (first | split | simp)

/-- A step is owed after one character time exactly where the counter it belongs to owes it. -/
theorem State.mem_passTime_owed (s : State) (x : Threshold) :
    x ∈ s.passTime.owed ↔ match x with
      | .uplinkFragment => x ∈ s.uplink.tick.2
      | .segmentFragment | .quiet => x ∈ (silenceTick s.segment s.transmitter.drives s.policy.gapTime.toNat).2
      | .jabber => x ∈ (activityTick s.segment s.transmitter.holdsLine s.policy.jabberLimit.toNat).2
      | .missingEcho | .abortEnd => x ∈ s.transmitter.tick.2
      | .deadline => x ∈ s.watchTick.2
      | .token => x ∈ s.tokenTick.2 := by
  have h1 := s.uplink.tick_owed x
  have h2 := silenceTick_owed s.segment s.transmitter.drives s.policy.gapTime.toNat x
  have h3 := activityTick_owed s.segment s.transmitter.holdsLine s.policy.jabberLimit.toNat x
  have h4 := s.transmitter.tick_owed x
  have h5 := s.watchTick_owed x
  have h6 := s.tokenTick_owed x
  simp only [State.passTime, SegmentReceiver.tick, List.mem_append]
  constructor
  · rintro ((((h | (h | h)) | h) | h) | h)
    · cases h1 h; exact h
    · rcases h2 h with rfl | rfl <;> exact h
    · cases h3 h; exact h
    · rcases h4 h with rfl | rfl <;> exact h
    · cases h5 h; exact h
    · cases h6 h; exact h
  · cases x <;> intro h <;> simp [h]

end Sys2Proof.Machine
end

