-- ==== Sys2Proof/Tests/Slice0.lean ====
section
/-! SUPPORT. Small tests: one or two steps of each command with values worked out from the spec, and for each statement
with hypotheses a theorem that its hypotheses are met. WellFormed has no check to refuse anything: every operand's type
is exact, so no ill-formed command can be written. -/

namespace Sys2Proof.Tests

open Sys2Proof Sys2Proof.Machine

set_option Elab.async false

/-! ### Small states -/

/-- The configuration of the one valid entry: index 5, outer 10, inner 20, both classes. -/
def sample : Configuration :=
  { outer := 10, inner := 20, admin := .enabled, polled := true, token := true, maxRequest := 4, maxResponse := 4,
    deadline := 100, tokenCap := 50, publishDivider := 2 }

/-- The one valid entry. -/
def entry : Entry := Entry.fresh sample 8

/-- A gate in this device state with this entry at index 5. -/
def withEntry (d : DeviceState) (e : Entry) : State :=
  { State.reset with device := d, table := State.reset.table.set 5 (some e) }

/-- The gate with the sample entry. -/
def base (d : DeviceState) : State := withEntry d entry

/-- An engagement of this kind in this state on the sample entry. -/
def engagement (kind : DownKind) (state : EngagementState) : Engagement :=
  { state := state, kind := kind, index := some 5, outer := 10, inner := 20, probe := false, timeOpened := 0,
    headArrival := none, budget := if kind = .grant then some 30 else none,
    seen := if kind = .grant then some 2 else none }

/-- The gate in RUN with this engagement, its reservation held, the token counter at 1. -/
def engaged (kind : DownKind) (state : EngagementState) : State :=
  { base .run with
    engagement := some (engagement kind state), token := 1,
    up := { frames := [], exchangeHeld := true, managementHeld := false, preference := .management } }

/-- A request with this code and these arguments in READY. -/
def asking (code : Byte) (args : List Byte) (s : State) : State :=
  { s with slot := some (code :: args), up := { s.up with managementHeld := true } }

/-- A frame of which all but the second CHECK character has been taken, and that character. -/
def nearlyWhole (body : List Byte) : OpenFrame :=
  { kept := body ++ [highByte (crc body)], register := crc body, damage := none }

/-- A frame open in the segment receiver. -/
def hearing (f : OpenFrame) (s : State) : State := { s with segment := { s.segment with state := .inFrame f } }

/-- The gate with this frame in its Down Queue. -/
def queued (f : DownFrame) (s : State) : State := { s with downQueue := [f] }

/-- The next state satisfies this. -/
def goes (c : Instr) (s : State) (p : State → Bool) : Bool :=
  match exec c s with
  | .next t => p t
  | .fault _ => false
  | .refused _ => false

/-- The payloads of the frames in the Up Queue. -/
def payloads (t : State) : List (List Byte) := t.up.frames.map (·.payload)

/-- The event kinds and details in the Event Queue. -/
def posted (t : State) : List (EventKind × Half) := t.events.records.map fun r => (r.kind, r.detail)

/-! ### One step of each command -/

theorem test_resetAsserted : goes .resetAsserted (engaged .request .awaiting) (· = State.reset) = true := by decide +kernel

theorem test_resetReleased : goes .resetReleased State.reset (fun t => t.device = .init ∧ t.hold = true) = true := by
  decide +kernel

theorem test_initialisationCompletes :
    goes .initialisationCompletes (base .init) (fun t => t.device = .standby ∧ t.hold = false) = true := by decide +kernel

/-- A REQUEST to outer address 10 with one payload character goes to the Down Queue. -/
theorem test_uplinkFrameEnd :
    goes (.uplinkFrameEnd (lowByte (crc [10, 0, 0xFF, 1, 7])))
      { base .run with uplink := { frame := some (nearlyWhole [10, 0, 0xFF, 1, 7]), silence := 0, midCharacter := true } }
      (fun t => t.downQueue = [{ kind := .request, dest := 10, payload := [7] }]) = true := by decide +kernel

theorem test_segmentFrameEnd :
    goes (.segmentFrameEnd (lowByte (crc [0xFF, 0x31, 20, 1, 7])))
      (hearing (nearlyWhole [0xFF, 0x31, 20, 1, 7]) (engaged .request .receiving))
      (fun t => t.engagement = none ∧ payloads t = [[7]] ∧ posted t = [] ∧ t.up.exchangeHeld = false) = true := by
  decide +kernel

/-- A silence of two character times ends an uplink frame as a fragment. -/
theorem test_fragmentSilence :
    goes (.fragmentSilence .uplink)
      { base .run with uplink := { frame := some (OpenFrame.open 10), silence := 1, midCharacter := false } }
      (fun t => t.uplink.frame = none ∧ posted t = [(.uplinkDamaged, 1)]) = true := by decide +kernel

theorem test_headArrival :
    goes (.headArrival 0xFF) { engaged .request .awaiting with clock := 77 }
      (fun t => t.engagement.map (fun g => (g.state, g.headArrival)) = some (.receiving, some 77) ∧
        t.segment.state = .inFrame (OpenFrame.open 0xFF)) = true := by decide +kernel

theorem test_jabber :
    goes .jabber { base .run with segment := { (base .run).segment with activity := 300 } }
      (fun t => t.segment.state = .muted ∧ t.segment.activity = 0 ∧ posted t = [(.jabber, 0)]) = true := by
  decide +kernel

/-- A REQUEST as rewritten for the segment. -/
def outgoing : LineFrame := { dest := 20, kind := .request, src := 0xFF, payload := [7] }

/-- The quiet line lets a frame in GAP_WAIT begin. -/
theorem test_lineQuiet :
    goes .lineQuiet
      { engaged .request .sending with
        transmitter := .gapWait outgoing, segment := { (base .run).segment with silence := 3 } }
      (fun t => t.transmitter = .onLine outgoing 0 0 ∧ t.segment.silence = 0) = true := by decide +kernel

/-- A frame on the line: these many characters begun, these many echoes equal. -/
def onLine (kind : DownKind) (sent compared : Nat) : State :=
  { engaged kind .sending with transmitter := .onLine outgoing sent compared }

theorem test_transmissionComplete :
    goes .transmissionComplete (onLine .request 6 6)
      (fun t => t.transmitter = .idle ∧ t.watch = 0 ∧ t.engagement.map (·.state) = some .awaiting) = true := by
  decide +kernel

/-- The echo of the character at position 1 is missing: LINE_FAULT with that position. -/
theorem test_echoFault :
    goes (.echoFault none) (onLine .request 3 1)
      (fun t => posted t = [(.echoFault, 1)] ∧ payloads t = [[9, 0, 1]] ∧
        t.engagement.map (·.state) = some (.settling false) ∧ t.transmitter = (SegmentTransmitter.onLine outgoing 3 1).abort)
      = true := by decide +kernel

theorem test_abortEnd :
    goes .abortEnd { base .run with transmitter := .aborting [⟨false, 1⟩] (some outgoing) }
      (fun t => t.transmitter = .gapWait outgoing ∧ t.sdrv = false) = true := by decide +kernel

/-- A character whose start bit was heard in ABORTING is still in progress at the end of the procedure. -/
theorem test_abortEnd_keepsCharacter :
    goes .abortEnd { base .run with
        transmitter := .aborting [⟨false, 1⟩] none
        segment := { state := .lineIdle, silence := 0, activity := 0, midCharacter := true } }
      (fun t => t.transmitter = .idle ∧ t.segment.midCharacter = true ∧ t.segment.silence = 0) = true := by decide +kernel

theorem test_deadlineExpiry :
    goes .deadlineExpiry { engaged .request .awaiting with watch := 99 }
      (fun t => t.engagement = none ∧ payloads t = [[11, 0, 100]] ∧ posted t = [(.silent, 100)]) = true := by
  decide +kernel

theorem test_tokenExpiry :
    goes .tokenExpiry (engaged .grant .holding)
      (fun t => payloads t = [[0, 0]] ∧ t.up.frames.map (·.aux) = [true] ∧ posted t = [(.reclaimed, 2)] ∧
        t.engagement.map (·.state) = some (.settling false)) = true := by decide +kernel

/-- A frame of the Up Queue with this mark. -/
def reply (mark : Option Mark) : UpFrame :=
  { kind := .mrsp, dest := 0xFF, src := 254, aux := false, payload := [17, 0, 0, 0], mark := mark }

/-- The gate sending that frame as the head of its Up Queue. -/
def sendingReply (mark : Option Mark) (d : DeviceState) : State :=
  { base d with
    up := { frames := [reply mark], exchangeHeld := false, managementHeld := false, preference := .management },
    uplinkTransmitter := .sending ((reply mark).wire false) 9 }

theorem test_uplinkTransmissionComplete :
    goes .uplinkTransmissionComplete (sendingReply (some (.uplinkRate ⟨.normal, 512⟩)) .run)
      (fun t => t.up.frames = [] ∧ t.uplinkTransmitter = .idle ∧ t.uplinkRate = ⟨.normal, 512⟩) = true := by
  decide +kernel

theorem test_softResetTakesPlace :
    goes .uplinkTransmissionComplete (sendingReply (some .softReset) .run)
      (fun t => t.device = .init ∧ t.up.frames = [] ∧ t.table.get 5 = some entry) = true := by decide +kernel

/-- A REQUEST of one character to the sample entry. -/
def request : DownFrame := { kind := .request, dest := 10, payload := [7] }

theorem test_take_forwards :
    goes .take (queued request (base .run))
      (fun t => t.transmitter = .gapWait outgoing ∧ t.downQueue = [] ∧ t.up.exchangeHeld = true ∧
        t.engagement = some (engagement .request .sending)) = true := by decide +kernel

theorem test_take_refuses :
    goes .take (queued { request with payload := [1, 2, 3, 4, 5] } (base .run))
      (fun t => payloads t = [[7, 0, 5]] ∧ posted t = [(.refused, 7)] ∧ t.engagement = none) = true := by decide +kernel

theorem test_identify :
    goes .identify (asking 1 [] (base .run))
      (fun t => payloads t = [[1, 0, 0, 0, 0x46, 0, 0x40, 1, 64, 4, 8, 32]] ∧ t.slot = none) = true := by decide +kernel

theorem test_getState :
    goes .getState (asking 2 [] (base .run))
      (fun t => payloads t = [[2, 0, 0, 0, 1, 0, 0, 0, 0xFF, 0, 0, 0, 0, 0, 0, 0, 0, 0, 0, 0, 2, 0, 0, 0]]) = true := by
  decide +kernel

theorem test_setState :
    goes .setState (asking 3 [1] (base .standby))
      (fun t => payloads t = [[3, 0, 0, 0, 1]] ∧ t.device = .run) = true := by decide +kernel

theorem test_readPolicy :
    goes .readPolicy (asking 4 [] (base .run))
      (fun t => payloads t = [[4, 0, 0, 0, 254, 4, 1, 44, 3, 8, 1, 0, 0, 3, 0xF6, 0, 3, 0xF6]]) = true := by
  decide +kernel

/-- A policy whose gap time is 5. -/
def policyArgs : List Byte := [254, 5, 1, 44, 3, 8, 1, 0, 0, 3, 0xF6, 0, 3, 0xF6]

theorem test_writePolicy :
    goes .writePolicy (asking 5 policyArgs (base .standby))
      (fun t => payloads t = [[5, 0, 0, 0]] ∧ t.policy = { Policy.default with gapTime := 5 }) = true := by
  decide +kernel

theorem test_writePolicy_wrongState :
    goes .writePolicy (asking 5 policyArgs (base .run)) (fun t => payloads t = [[5, 7, 0, 1]]) = true := by
  decide +kernel

/-- The arguments of a write of this index with outer address 11, inner address 21 and else the sample's values. -/
def entryArgs (index : Byte) : List Byte := [index, 11, 21, 1, 1, 1, 4, 4, 0, 100, 0, 50, 2]

theorem test_writeEntry :
    goes .writeEntry (asking 6 (entryArgs 6) (base .run))
      (fun t => payloads t = [[6, 0, 0, 0]] ∧
        t.table.get 6 = some (Entry.fresh { sample with outer := 11, inner := 21 } 8) ∧ t.table.get 5 = some entry) = true
    := by decide +kernel

theorem test_writeEntry_inUse :
    goes .writeEntry (asking 6 [6, 10, 21, 1, 1, 1, 4, 4, 0, 100, 0, 50, 2] (base .run))
      (fun t => payloads t = [[6, 6, 0, 9]] ∧ t.table = (base .run).table) = true := by decide +kernel

theorem test_clearEntry :
    goes .clearEntry (asking 7 [5] (base .run))
      (fun t => payloads t = [[7, 0, 0, 0]] ∧ t.table = State.reset.table) = true := by decide +kernel

/-- Two records, of entries 63 and 0. -/
theorem test_readEntries :
    goes .readEntries (asking 8 [63, 2] (base .run))
      (fun t => payloads t =
          [[8, 0, 0, 0] ++ (0 :: 63 :: List.replicate 43 0) ++ List.replicate 45 0] ∧ t.tablePointer = 1) = true := by
  decide +kernel

theorem test_readNext :
    goes .readNext (asking 9 [1] { base .run with tablePointer := 5 })
      (fun t => payloads t =
          [[9, 0, 0, 0, 1, 5, 10, 20, 1, 1, 1, 4, 4, 0, 100, 0, 50, 2, 0, 1, 0, 8, 0] ++ List.replicate 6 0xFF ++
            List.replicate 20 0] ∧ t.tablePointer = 6) = true := by decide +kernel

theorem test_findEntry :
    goes .findEntry (asking 10 [10] (base .run)) (fun t => payloads t = [[10, 0, 0, 0, 5]]) = true := by decide +kernel

/-- The sample entry BARRED, its probe countdown at this value. -/
def barred (n : Nat) : Entry := { entry with status := .barred, probeCountdown := n }

theorem test_release :
    goes .release (asking 11 [5] (withEntry .run (barred 8)))
      (fun t => payloads t = [[11, 0, 0, 0]] ∧ posted t = [(.released, 2)] ∧
        t.table.get 5 = some entry) = true := by decide +kernel

theorem test_clearStats :
    goes .clearStats (asking 12 [0xFF] (withEntry .run { entry with outcomes := 3, lastOutcome := some .silent }))
      (fun t => payloads t = [[12, 0, 0, 0]] ∧ t.table.get 5 = some entry) = true := by decide +kernel

/-- The gate with one STRAY event in its Event Queue. -/
def stray : State :=
  { base .run with
    events := { records := [{ kind := .stray, timestamp := 0x01020304, index := none, outer := none, detail := 9 }], lost := 0 } }

theorem test_takeEvents :
    goes .takeEvents (asking 13 [8] stray)
      (fun t => payloads t = [[13, 0, 0, 0, 10, 1, 2, 3, 4, 0xFF, 0xFF, 0, 9, 0]] ∧ t.attn = false) = true := by
  decide +kernel

theorem test_readTime :
    goes .readTime (asking 14 [] { base .run with clock := 0x01020304 })
      (fun t => payloads t = [[14, 0, 0, 0, 1, 2, 3, 4]]) = true := by decide +kernel

theorem test_setTime :
    goes .setTime (asking 15 [1, 2, 3, 4] (base .run))
      (fun t => payloads t = [[15, 0, 0, 0]] ∧ t.clock = 0x01020304) = true := by decide +kernel

theorem test_abandon :
    goes .abandon (asking 16 [] (engaged .request .awaiting))
      (fun t => payloads t = [[10, 0, 2], [16, 0, 0, 0, 2]] ∧ posted t = [(.abandoned, 2)] ∧
        t.engagement.map (·.state) = some (.settling true)) = true := by decide +kernel

theorem test_softReset :
    goes .softReset (asking 17 [] (base .run))
      (fun t => payloads t = [[17, 0, 0, 0]] ∧ t.softResetUnderWay = true ∧ t.device = .run) = true := by decide +kernel

theorem test_badCommand :
    goes .badCommand (asking 18 [1] (base .run)) (fun t => payloads t = [[18, 2, 0, 0]]) = true := by decide +kernel

theorem test_characterTaken :
    goes (.characterTaken .segment (.character ⟨false, 0x31⟩)) (hearing (OpenFrame.open 0xFF) (engaged .request .receiving))
      (fun t => t.segment.state = .inFrame { kept := [0xFF, 0x31], register := crc [0xFF, 0x31], damage := none }) = true
    := by decide +kernel

theorem test_characterTime :
    goes .characterTime { engaged .request .awaiting with watch := 98 }
      (fun t => t.clock = 1 ∧ t.watch = 98 + 1 ∧ t.owed = []) = true := by decide +kernel

theorem test_characterTime_owes :
    goes .characterTime { engaged .request .awaiting with watch := 99 }
      (fun t => t.watch = 99 ∧ t.owed = [.deadline]) = true := by decide +kernel

/-! ### A step owed that a later command overtakes (log 3) -/

/-- A frame is open on the segment, this much activity is counted, and the silence of two is owed. -/
def owing (activity : Nat) (s : State) : State :=
  { s with
    segment := { state := .inFrame (OpenFrame.open 10), silence := 1, activity := activity, midCharacter := false }
    owed := [.segmentFragment] }

/-- A start bit comes before the silence of two: the run makes its step, or owes JABBER at its limit. -/
theorem test_startBit_resumes :
    goes (.characterTaken .segment .startBit) (owing 5 (base .run))
      (fun t => t.segment.activity = 6 ∧ t.segment.silence = 0 ∧ t.owed = [.segmentFragment]) = true ∧
    goes (.characterTaken .segment .startBit) (owing 300 (base .run))
      (fun t => t.segment.activity = 300 ∧ t.owed = [.segmentFragment, .jabber]) = true := by decide +kernel

/-- A frame truncated while its silence of two is owed leaves a silence of two, and no run. -/
theorem test_tokenExpiry_countsSilence :
    goes .tokenExpiry (owing 5 (engaged .grant .holding))
      (fun t => t.segment = { state := .lineIdle, silence := 2, activity := 0, midCharacter := false }) = true := by
  decide +kernel

/-- The quiet line owed to a gap of 4 is the fourth step of a gap of 5. -/
theorem test_writePolicy_recounts :
    goes .writePolicy
      (asking 5 policyArgs { base .standby with
        segment := { state := .lineIdle, silence := 3, activity := 0, midCharacter := false }, owed := [.quiet] })
      (fun t => t.segment.silence = 4 ∧ t.owed = []) = true := by decide +kernel

/-! ### The hypotheses of the statements are met

One theorem for each statement that has hypotheses: concrete states and operands that meet them, clause by clause. -/

theorem withEntry_get {s : State} {e x : Entry} {i : Fin 64} (ht : s.table = State.reset.table.set 5 (some e))
    (h : s.table.get i = some x) : i = 5 ∧ x = e := by
  rw [ht, show State.reset.table.set 5 (some e) = State.reset.table.set (5 : Fin 64).val (some e) from rfl,
    Table.get_set] at h
  by_cases h5 : (5 : Fin 64) = i
  · rw [if_pos h5] at h
    exact ⟨h5.symm, (Option.some.inj h).symm⟩
  · rw [if_neg h5] at h
    exact absurd (h.symm.trans (Table.get_empty i)) (by simp)

theorem policy_sound : Policy.default.Sound :=
  ⟨by decide, by decide, by decide, by decide, by decide, by decide⟩

theorem observing_sound : Policy.Sound { Policy.default with mode := .observe } :=
  ⟨by decide, by decide, by decide, by decide, by decide, by decide⟩

theorem sample_sound (c : Configuration) (h : c = sample ∨ c = { sample with admin := .disabled } ∨
    c = { sample with polled := false, deadline := 0 } ∨
    c = { sample with token := false, tokenCap := 0, publishDivider := 0 }) : c.Sound 254 := by
  rcases h with h | h | h | h <;> subst h <;>
    exact ⟨by decide, by decide, by decide, by decide, by decide, by decide, by decide, by decide, by decide⟩

theorem oneEntry_sound {s : State} {e : Entry} (ht : s.table = State.reset.table.set 5 (some e))
    (hp : s.policy.Sound) (he : e.Sound s.policy) (hn : e.pending = none) : TableSound s where
  policy := hp
  entries i x h := (withEntry_get ht h).2 ▸ he
  outers i j a b ha hb _ := (withEntry_get ht ha).1.trans (withEntry_get ht hb).1.symm
  inners i j a b ha hb _ := (withEntry_get ht ha).1.trans (withEntry_get ht hb).1.symm
  claims i j a b c ha hc := by
    rw [(withEntry_get ht ha).2, hn] at hc
    exact absurd hc (by simp)
  engaged i x h hx := by
    rw [(withEntry_get ht h).2, hn] at hx
    exact absurd hx (by simp)

/-- The entries the witnesses use are sound under the policies they use. -/
theorem entry_sound (e : Entry) (p : Policy) (hp : p = Policy.default ∨ p = { Policy.default with mode := .observe })
    (hc : e.config.Sound 254) (hd : e.status = .disabled ↔ e.config.admin = .disabled)
    (hb : e.status = .barred → p.mode = .enforce) (hs : e.strikes = 0)
    (hn : 1 ≤ e.probeCountdown ∧ e.probeCountdown ≤ 255)
    (hv : if e.config.token = true then e.dividerCount < e.config.publishDivider.toNat else e.dividerCount = 0)
    (hq : e.pending = none) : e.Sound p where
  config := by rcases hp with h | h <;> subst h <;> exact hc
  disabled := hd
  barred := hb
  strikes := by rcases hp with h | h <;> subst h <;> rw [hs] <;> decide
  countdown := hn
  divider := hv
  pending c h := absurd (hq.symm.trans h) (by simp)

theorem base_sound {s : State} (ht : s.table = (base .run).table) (hp : s.policy = Policy.default) : TableSound s :=
  oneEntry_sound (e := entry) ht (hp ▸ policy_sound)
    (hp ▸ entry_sound entry _ (.inl rfl) (sample_sound _ (.inl rfl)) (by decide) (by decide) rfl (by decide) (by decide)
      rfl) rfl

theorem withEntry_at (d : DeviceState) (e : Entry) : (withEntry d e).table.get 5 = some e := by
  show (State.reset.table.set (5 : Fin 64).val (some e)).get 5 = some e
  rw [Table.get_set]
  rfl

/-- An engagement on the sample entry is open on it. -/
theorem engaged_on (kind : DownKind) (state : EngagementState) :
    Engaged (engaged kind state) (engagement kind state) 5 entry := ⟨rfl, rfl, withEntry_at .run _, .inl rfl⟩

theorem hearing_on {kind : DownKind} {state : EngagementState} (f : OpenFrame) :
    Engaged (hearing f (engaged kind state)) (engagement kind state) 5 entry := ⟨rfl, rfl, withEntry_at .run _, .inl rfl⟩

/-- A frame that ends. -/
theorem hearing_ends {f : OpenFrame} {s : State} {v : Byte} {e : Ended} (hw : s.works = true)
    (hf : s.transmitter.holdsLine = false) (hl : f.atSecondCheck = true) (he : f.take v = .ended e) :
    SegmentEnds (hearing f s) f v e := ⟨hw, hf, rfl, hl, he⟩

/-- The frame of these characters ends intact on its own check. -/
theorem whole_ends {body : List Byte} {s : State} {m : Frame} (hw : s.works = true)
    (hf : s.transmitter.holdsLine = false) (hl : (nearlyWhole body).atSecondCheck = true)
    (he : (nearlyWhole body).take (lowByte (crc body)) = .ended (.intact m)) :
    SegmentEnds (hearing (nearlyWhole body) s) (nearlyWhole body) (lowByte (crc body)) (.intact m) :=
  hearing_ends hw hf hl he

/-- A request whose arguments are given is in READY. -/
theorem asking_ready {s : State} (code : Byte) (args : List Byte) (hw : s.works = true) :
    RequestReady (asking code args s) code args := ⟨rfl, rfl, hw⟩

theorem test_meets_StepRunsFrontCommand : State.reset.pending = [] := rfl

/-- A gate in AWAITING meets every invariant, and its step answers a next state. -/
def waiting : State := { engaged .request .awaiting with pending := [.characterTime] }

theorem test_meets_StepKeepsAccounts : Accounts waiting ∧ ∃ t, step waiting = .next t :=
  ⟨⟨by decide, by decide, by decide, by decide, by decide, by decide, by decide,
    fun g h => by cases h; decide⟩, _, rfl⟩

theorem test_meets_StepKeepsLines : Lines waiting ∧ ∃ t, step waiting = .next t :=
  ⟨⟨by decide, by decide, by decide, trivial, fun h => absurd h (by decide)⟩, _, rfl⟩

theorem test_meets_StepKeepsTables :
    Lines waiting ∧ TableSound waiting ∧ EngagedSound waiting ∧ ∃ t, step waiting = .next t := by
  refine ⟨test_meets_StepKeepsLines.1, base_sound rfl rfl, ?_, _, rfl⟩
  intro g h
  cases h
  exact ⟨entry, by decide +kernel, rfl, rfl, fun _ => rfl, by decide, by decide, by decide⟩

theorem test_meets_ResetHoldsEveryBlock : Instr.take ≠ .resetReleased := by decide

theorem test_meets_InitialisationBringsStandby : State.reset.device = .reset ∧ (base .init).device = .init := by decide

theorem test_meets_InitIgnoresCharacters :
    (base .init).device = .init ∧ (base .init).owed = [] ∧ (base .init).transmitter = .idle ∧
    ∃ a b, { base .init with transmitter := .aborting [a, b] none }.transmitter = .aborting (a :: b :: []) none :=
  ⟨rfl, rfl, rfl, ⟨false, 1⟩, ⟨false, 2⟩, rfl⟩

theorem test_meets_SoftResetTakesPlace :
    RequestReady (asking 17 [] (base .run)) 17 [] ∧
    (sendingReply (some .softReset) .run).up.frames = [reply (some .softReset)] ∧
    (reply (some .softReset)).mark = some .softReset ∧
    (sendingReply (some .softReset) .run).uplinkTransmitter = .sending ((reply (some .softReset)).wire false) 9 :=
  ⟨asking_ready _ _ rfl, rfl, rfl, rfl⟩

/-- Framers at the boundaries of their positions: DEST alone, before LEN with 240 and with 241, a payload character
outstanding, before the first CHECK character, before the second. -/
theorem test_meets_FramerTakesBodyCharacter :
    ({ OpenFrame.open 1 with damage := some .badLen }).damage = some .badLen ∧
    (OpenFrame.open 1).damage = none ∧ (OpenFrame.open 1).kept.length < 3 ∧
    [(1 : Byte), 2, 3].length = 3 ∧ (240 : Byte).toNat ≤ 240 ∧ 240 < (241 : Byte).toNat ∧
    [(1 : Byte), 2, 3, 1].length < (1 : Byte).toNat + 4 ∧ [(1 : Byte), 2, 3, 1, 9].length = (1 : Byte).toNat + 4 ∧
    (nearlyWhole [1, 2, 3, 1, 9]).kept[3]? = some 1 ∧ (nearlyWhole [1, 2, 3, 1, 9]).kept.length = (1 : Byte).toNat + 5 ∧
    half ((nearlyWhole [1, 2, 3, 1, 9]).kept.getD 5 0) (lowByte (crc [1, 2, 3, 1, 9])) =
      (nearlyWhole [1, 2, 3, 1, 9]).register ∧
    half ((nearlyWhole [1, 2, 3, 1, 9]).kept.getD 5 0) (lowByte (crc [1, 2, 3, 1, 9]) + 1) ≠
      (nearlyWhole [1, 2, 3, 1, 9]).register := by decide +kernel

theorem test_meets_FramesReadBack :
    ([] : List Byte).length ≤ 240 ∧ (List.replicate 240 (7 : Byte)).length ≤ 240 ∧
    half 0 0 ≠ crc (1 :: ([2, 3, BitVec.ofNat 8 0] ++ [])) := by decide +kernel

theorem test_meets_UplinkCharacterTaken :
    (base .standby).works = true ∧ (base .standby).uplink.frame = none ∧
    { base .standby with uplink := { frame := some (OpenFrame.open 10), silence := 0, midCharacter := true } }.uplink.frame
      = some (OpenFrame.open 10) ∧
    (OpenFrame.open 10).take 0 = .stillOpen { OpenFrame.open 10 with kept := [10, 0], register := crc [10, 0] } := by
  decide +kernel

/-- Frames of each fate: damaged, to an empty and to an occupied Slot, of a wrong kind, and to a Down Queue with room
and without. -/
theorem test_meets_UplinkFrameJudged :
    (base .run).works = true ∧
    ((nearlyWhole [254, 7, 0xFF, 1, 1]).damage = none ∧ (nearlyWhole [254, 7, 0xFF, 1, 1]).kept[3]? = some 1 ∧
      (nearlyWhole [254, 7, 0xFF, 1, 1]).kept.length = (1 : Byte).toNat + 5) ∧
    half ((nearlyWhole [254, 7, 0xFF, 1, 1]).kept.getD 5 0) (lowByte (crc [254, 7, 0xFF, 1, 1])) =
      (nearlyWhole [254, 7, 0xFF, 1, 1]).register ∧
    (254 : Byte) = (base .run).policy.gateAddress ∧ kindCode 7 = 7 ∧ (base .run).slot = none ∧
    (asking 1 [] (base .run)).slot ≠ none ∧ kindCode 4 = 4 ∧ (nearlyWhole [10, 4, 0xFF, 0]).kept[3]? ≠ some 2 ∧
    (queued request (base .run)).downQueue.length < 4 ∧
    ¬ ({ base .run with downQueue := List.replicate 4 request } : State).downQueue.length < 4 := by decide +kernel

/-- The transmitter in each of its states, on the line with one character left to send and with none. -/
theorem test_meets_HoldAndAttn :
    ∃ f : LineFrame,
      { base .run with transmitter := .onLine f 6 2 }.transmitter = .onLine f 6 2 ∧ 6 < f.payload.length + 6 ∧
      { base .run with transmitter := .onLine f 7 6 }.transmitter = .onLine f 7 6 ∧ ¬ 7 < f.payload.length + 6 ∧
      { base .run with transmitter := .aborting [⟨false, 1⟩] none }.transmitter = .aborting [⟨false, 1⟩] none ∧
      { base .run with transmitter := .gapWait f }.transmitter = .gapWait f ∧ (base .run).transmitter = .idle ∧
      (base .run).uplinkTransmitter = .idle :=
  ⟨outgoing, rfl, by decide, rfl, by decide, rfl, rfl, rfl, rfl⟩

theorem test_meets_SilenceEndsFrames :
    (base .run).works = true ∧
    (let s := { base .run with uplink := { frame := some (OpenFrame.open 10), silence := 1, midCharacter := false } }
     s.uplink.frame = some (OpenFrame.open 10) ∧ s.uplink.midCharacter = false ∧ s.uplink.silence = 1) ∧
    (let s := { base .run with
       segment := { state := .inFrame (OpenFrame.open 10), silence := 1, activity := 5, midCharacter := false } }
     s.segment.state = .inFrame (OpenFrame.open 10) ∧ s.transmitter.holdsLine = false ∧
       s.segment.midCharacter = false ∧ s.segment.silence = 1) := by decide +kernel

/-- The gate with a MUTED receiver. -/
def mutedLine (s : State) : State := { s with segment := { s.segment with state := .muted } }

/-- The characters of a RESPONSE of the sample station with this payload, up to the last of it. -/
def response (payload : List Byte) : List Byte := frameBody 0xFF 0x31 20 payload

theorem test_meets_SegmentCharacterTaken :
    (base .run).works = true ∧ (base .run).transmitter.holdsLine = false ∧ (base .run).segment.state = .lineIdle ∧
    { base .run with transmitter := .aborting [⟨false, 1⟩] none }.transmitter = .aborting [⟨false, 1⟩] none ∧
    (mutedLine (base .run)).segment.state = .muted ∧
    (hearing (OpenFrame.open 10) (base .run)).segment.state = .inFrame (OpenFrame.open 10) ∧
    (OpenFrame.open 10).take 0 = .stillOpen { OpenFrame.open 10 with kept := [10, 0], register := crc [10, 0] } ∧
    SegmentEnds (hearing (nearlyWhole (response [7])) (base .run)) (nearlyWhole (response [7]))
      (lowByte (crc (response [7]))) (.intact { dest := 0xFF, code := 1, src := 20, payload := [7] }) ∧
    (owing 300 (base .run)).SilenceOwed ∧ ¬ (hearing (OpenFrame.open 10) (base .run)).SilenceOwed :=
  ⟨rfl, rfl, rfl, rfl, rfl, rfl, by decide +kernel, whole_ends rfl rfl (by decide +kernel) (by decide +kernel),
    by decide, by decide⟩

theorem test_meets_HeadArrivalOpensFrame :
    (engaged .request .awaiting).works = true ∧ (engaged .request .awaiting).transmitter.holdsLine = false ∧
    (engaged .request .awaiting).segment.state = .lineIdle ∧ (engaged .request .awaiting).device ≠ .standby ∧
    (engaged .request .awaiting).engagement = some (engagement .request .awaiting) ∧
    (base .standby).device = .standby ∧ (base .standby).segment.state = .lineIdle ∧
    (hearing (OpenFrame.open 10) (base .run)).segment.state = .inFrame (OpenFrame.open 10) := by decide +kernel

/-- A response at the largest length the sample entry admits. -/
theorem test_meets_ResponseAccepted :
    let f := nearlyWhole (response [1, 2, 3, 4])
    let s := hearing f (engaged .request .receiving)
    ∃ m, SegmentEnds s f (lowByte (crc (response [1, 2, 3, 4]))) (.intact m) ∧
      Engaged s (engagement .request .receiving) 5 entry ∧ m.src = 20 ∧ m.dest = 0xFF ∧ m.code = 1 ∧
      m.payload.length ≤ entry.config.maxResponse.toNat :=
  ⟨{ dest := 0xFF, code := 1, src := 20, payload := [1, 2, 3, 4] },
    whole_ends rfl rfl (by decide +kernel) (by decide +kernel), hearing_on _, rfl, rfl, rfl, by decide⟩

/-- One frame for each of the three tests it fails: another station's, a wrong kind, one character too long. -/
theorem test_meets_ResponseRejected (body : List Byte) (h : body = frameBody 0xFF 0x31 21 [7] ∨
    body = frameBody 0xFF 0x33 20 [7] ∨ body = response [1, 2, 3, 4, 5]) :
    let f := nearlyWhole body
    let s := hearing f (engaged .request .receiving)
    ∃ m, SegmentEnds s f (lowByte (crc body)) (.intact m) ∧ Engaged s (engagement .request .receiving) 5 entry ∧
      ((m.src ≠ 20 ∨ m.dest ≠ 0xFF) ∨ ((m.src = 20 ∧ m.dest = 0xFF) ∧ m.code ≠ 1) ∨
        ((m.src = 20 ∧ m.dest = 0xFF) ∧ m.code = 1 ∧ entry.config.maxResponse.toNat < m.payload.length)) := by
  rcases h with h | h | h <;> subst h
  · exact ⟨{ dest := 0xFF, code := 1, src := 21, payload := [7] },
      whole_ends rfl rfl (by decide +kernel) (by decide +kernel), hearing_on _, by decide⟩
  · exact ⟨{ dest := 0xFF, code := 3, src := 20, payload := [7] },
      whole_ends rfl rfl (by decide +kernel) (by decide +kernel), hearing_on _, by decide⟩
  · exact ⟨{ dest := 0xFF, code := 1, src := 20, payload := [1, 2, 3, 4, 5] },
      whole_ends rfl rfl (by decide +kernel) (by decide +kernel), hearing_on _, by decide⟩

/-- A second CHECK character that does not agree. -/
def wrongCheck (body : List Byte) : Byte := lowByte (crc body) + 1

theorem test_meets_ResponseDamaged :
    let f := nearlyWhole (response [7])
    let s := hearing f (engaged .request .receiving)
    EndsDamaged s (.segmentFrameEnd (wrongCheck (response [7]))) .check s.frameOver ∧
    Engaged s (engagement .request .receiving) 5 entry ∧ s.works = true ∧ s.transmitter.holdsLine = false ∧
    s.segment.state = .inFrame f :=
  ⟨.inl ⟨_, _, rfl, hearing_ends rfl rfl (by decide +kernel) (by decide +kernel), rfl⟩, hearing_on _, rfl, rfl, rfl⟩

/-- A frame broken off, one character time of silence gone. -/
def brokenOff (s : State) : State :=
  { s with segment := { state := .inFrame (OpenFrame.open 0xFF), silence := 1, activity := 9, midCharacter := false } }

/-- In any engagement state, a silence of two ends a fragment. -/
theorem test_meets_EndsDamaged (kind : DownKind) (state : EngagementState) :
    Engaged (brokenOff (engaged kind state)) (engagement kind state) 5 entry ∧
    ∃ t, EndsDamaged (brokenOff (engaged kind state)) (.fragmentSilence .segment) .fragment t :=
  ⟨⟨rfl, rfl, withEntry_at .run _, .inl rfl⟩, _, .inr ⟨_, rfl, rfl, rfl, rfl, rfl, rfl, rfl, rfl⟩⟩

/-- The gate with a Last-Closed record of the sample entry. -/
def closedBefore (inner : Byte) : State :=
  { base .run with lastClosed := some { index := 5, inner := inner, time := 0 } }

theorem test_meets_FramesOfNoEngagement :
    let f := nearlyWhole (response [7])
    let v := lowByte (crc (response [7]))
    let m : Frame := { dest := 0xFF, code := 1, src := 20, payload := [7] }
    (SegmentEnds (hearing f (base .run)) f (wrongCheck (response [7])) (.damaged .check) ∧
      SegmentEnds (hearing f (base .run)) f v (.intact m) ∧ (base .run).engagement = none ∧
      (base .run).lastClosed = none) ∧
    (SegmentEnds (hearing f (closedBefore 20)) f v (.intact m) ∧ (closedBefore 20).table.get 5 = some entry) ∧
    SegmentEnds (hearing f (base .standby)) f v (.intact m) ∧
    (SegmentEnds (hearing f (engaged .request (.settling true))) f v (.intact m) ∧
      (engaged .request (.settling true)).engagement = some (engagement .request (.settling true))) :=
  ⟨⟨hearing_ends rfl rfl (by decide +kernel) (by decide +kernel),
      whole_ends rfl rfl (by decide +kernel) (by decide +kernel), rfl, rfl⟩,
    ⟨whole_ends rfl rfl (by decide +kernel) (by decide +kernel), by decide +kernel⟩,
    whole_ends rfl rfl (by decide +kernel) (by decide +kernel),
    whole_ends rfl rfl (by decide +kernel) (by decide +kernel), rfl⟩

/-- A late response of an entry whose inner address has changed since. -/
theorem test_meets_FramesOfNoEngagement_changed :
    let f := nearlyWhole (frameBody 0xFF 0x31 22 [7])
    SegmentEnds (hearing f (closedBefore 22)) f (lowByte (crc (frameBody 0xFF 0x31 22 [7])))
        (.intact { dest := 0xFF, code := 1, src := 22, payload := [7] }) ∧
      ∀ e, (closedBefore 22).table.get 5 = some e → e.config.inner ≠ 22 :=
  ⟨whole_ends rfl rfl (by decide +kernel) (by decide +kernel),
    fun e h => by rw [(withEntry_get (e := entry) rfl h).2]; decide⟩

theorem test_meets_HolderReturn :
    let body := frameBody 0xFF 0x35 20 []
    let s := hearing (nearlyWhole body) (engaged .grant .holding)
    SegmentEnds s (nearlyWhole body) (lowByte (crc body)) (.intact { dest := 0xFF, code := 5, src := 20, payload := [] }) ∧
    Engaged s (engagement .grant .holding) 5 entry :=
  ⟨whole_ends rfl rfl (by decide +kernel) (by decide +kernel), hearing_on _⟩

/-- Publications to the controller, to the holder itself, and to an address no entry has. -/
theorem test_meets_HolderPublish (dest : Byte) (h : dest = 0xFF ∨ dest = 20 ∨ dest = 30) :
    let body := frameBody dest 0x33 20 [7]
    let s := hearing (nearlyWhole body) (engaged .grant .holding)
    TableSound s ∧
    SegmentEnds s (nearlyWhole body) (lowByte (crc body)) (.intact { dest := dest, code := 3, src := 20, payload := [7] }) ∧
    Engaged s (engagement .grant .holding) 5 entry ∧ entry.config.token = true ∧ entry.dividerCount = 0 ∧
    s.table.get 5 = some entry ∧ entry.config.inner = 20 ∧
    (dest = 30 → ∀ i d, s.table.get i = some d → d.config.inner ≠ dest) := by
  refine ⟨base_sound rfl rfl, ?_, hearing_on _, rfl, rfl, withEntry_at .run _, rfl, ?_⟩
  · rcases h with h | h | h <;> subst h <;> exact whole_ends rfl rfl (by decide +kernel) (by decide +kernel)
  · intro h30 i d hd
    rw [(withEntry_get (e := entry) rfl hd).2, h30]
    decide

/-- A publication that is thinned. -/
theorem test_meets_HolderPublish_thinned :
    let body := frameBody 0xFF 0x33 20 [7]
    let e : Entry := { entry with dividerCount := 1 }
    let s := hearing (nearlyWhole body) { engaged .grant .holding with table := (withEntry .run e).table }
    TableSound s ∧
    SegmentEnds s (nearlyWhole body) (lowByte (crc body)) (.intact { dest := 0xFF, code := 3, src := 20, payload := [7] }) ∧
    Engaged s (engagement .grant .holding) 5 e ∧ 0 < e.dividerCount :=
  ⟨oneEntry_sound (e := { entry with dividerCount := 1 }) rfl policy_sound
      (entry_sound _ _ (.inl rfl) (sample_sound _ (.inl rfl)) (by decide) (by decide) rfl (by decide) (by decide) rfl) rfl,
    whole_ends rfl rfl (by decide +kernel) (by decide +kernel), ⟨rfl, rfl, by decide +kernel, .inl rfl⟩, by decide⟩

theorem test_meets_HolderFaults (body : List Byte) (h : body = frameBody 0xFF 0x31 21 [] ∨ body = response []) :
    let s := hearing (nearlyWhole body) (engaged .grant .holding)
    Engaged s (engagement .grant .holding) 5 entry ∧
    SegmentEnds s (nearlyWhole body) (wrongCheck body) (.damaged .check) ∧
    ∃ m, SegmentEnds s (nearlyWhole body) (lowByte (crc body)) (.intact m) ∧
      (m.src ≠ 20 ∨ m.src = 20 ∧ m.code ≠ 3 ∧ m.code ≠ 5) := by
  rcases h with h | h <;> subst h
  · exact ⟨hearing_on _, hearing_ends rfl rfl (by decide +kernel) (by decide +kernel),
      { dest := 0xFF, code := 1, src := 21, payload := [] }, whole_ends rfl rfl (by decide +kernel) (by decide +kernel),
      by decide⟩
  · exact ⟨hearing_on _, hearing_ends rfl rfl (by decide +kernel) (by decide +kernel),
      { dest := 0xFF, code := 1, src := 20, payload := [] }, whole_ends rfl rfl (by decide +kernel) (by decide +kernel),
      by decide⟩

theorem test_meets_LookupsAndFindEntry :
    let s := asking 10 [10] (base .run)
    let t := asking 10 [255] (base .run)
    TableSound s ∧ RequestReady s 10 [10] ∧ s.table.get 5 = some entry ∧ entry.config.outer = 10 ∧
    TableSound t ∧ RequestReady t 10 [255] ∧ ∀ i e, t.table.get i = some e → e.config.outer ≠ 255 :=
  ⟨base_sound rfl rfl, asking_ready _ _ rfl, by decide +kernel, rfl, base_sound rfl rfl, asking_ready _ _ rfl,
    fun i e h => by rw [(withEntry_get (e := entry) rfl h).2]; decide⟩

/-- The gate with this much activity on the segment. -/
def noisy (n : Nat) (s : State) : State := { s with segment := { s.segment with activity := n } }

/-- In every state of the Engagement, at the jabber limit. -/
theorem test_meets_JabberMutes (state : EngagementState) :
    let s := noisy 300 (engaged .grant state)
    let r := noisy 300 (hearing (OpenFrame.open 10) (engaged .request .receiving))
    s.works = true ∧ s.transmitter.holdsLine = false ∧ s.segment.state ≠ .muted ∧
    s.policy.jabberLimit.toNat ≤ s.segment.activity ∧ s.device = .run ∧
    s.engagement = some (engagement .grant state) ∧ (engagement .grant state).index = some 5 ∧
    s.table.get 5 = some entry ∧ (noisy 300 (base .run)).engagement = none ∧
    r.policy.jabberLimit.toNat ≤ r.segment.activity ∧ r.segment.state = .inFrame (OpenFrame.open 10) ∧
    r.engagement = some (engagement .request .receiving) ∧ (owing 300 (engaged .request .receiving)).SilenceOwed :=
  ⟨rfl, rfl, (by simp [noisy, engaged, base, withEntry, State.reset]), Nat.le_refl 300, rfl, rfl, rfl,
    withEntry_at .run _, rfl, Nat.le_refl 300, rfl, rfl, by decide⟩

/-- The gate one step short of a quiet line. -/
def nearlyQuiet (s : State) : State := { s with segment := { s.segment with silence := 3 } }

theorem test_meets_LineQuietActs :
    (let s := nearlyQuiet (engaged .request (.settling true))
     s.works = true ∧ s.segment.midCharacter = false ∧ s.sdrv = false ∧
       s.segment.silence + 1 = s.policy.gapTime.toNat ∧ s.transmitter = .idle ∧ s.device = .run ∧
       s.engagement = some (engagement .request (.settling true))) ∧
    (nearlyQuiet (base .standby)).device = .standby ∧
    (let s := nearlyQuiet { engaged .request .sending with transmitter := .gapWait outgoing }
     s.transmitter = .gapWait outgoing ∧ s.device = .run ∧ s.sdrv = false ∧
       ∀ g, s.engagement = some g → ∀ b, g.state ≠ .settling b) :=
  ⟨by decide +kernel, rfl, rfl, rfl, rfl, fun g h b => by cases h; simp [engagement]⟩

theorem test_meets_EchoesComplete :
    (let s := onLine .request 3 2
     s.works = true ∧ s.transmitter = .onLine outgoing 3 2 ∧ outgoing.chars[2]? = some ⟨false, 0xFF⟩ ∧
       2 + 1 < outgoing.length) ∧
    (∃ c, outgoing.chars[6]? = some c) ∧ 6 + 1 = outgoing.length ∧
    (onLine .send 6 6).engagement = some (engagement .send .sending) ∧ (engagement .grant .sending).budget = some 30 := by
  refine ⟨by decide +kernel, ⟨_, rfl⟩, by decide, by decide, by decide⟩

theorem test_meets_EchoFaultsAbort :
    (onLine .grant 3 2).works = true ∧ (onLine .grant 3 2).transmitter = .onLine outgoing 3 2 ∧
    (onLine .grant 3 2).engagement = some (engagement .grant .sending) ∧
    outgoing.chars[2]? = some ⟨false, 0xFF⟩ ∧ (⟨true, 0xFF⟩ : LineChar) ≠ ⟨false, 0xFF⟩ ∧ 1 + 2 ≤ 3 := by
  decide +kernel

theorem test_meets_AbortProcedure :
    outgoing.payload.length ≤ 240 ∧ (∀ n, n ≤ 6 → ∃ c, outgoing.chars[n]? = some c) ∧
    outgoing.payload.length + 6 ≤ 7 ∧ [(⟨false, 1⟩ : LineChar)].length ≤ 1 ∧
    3 ≤ (base .run).policy.gapTime.toNat := by
  refine ⟨by decide, fun n h => ?_, by decide, by decide, by decide⟩
  exact ⟨_, List.getElem?_eq_getElem (show n < outgoing.chars.length by
    have : outgoing.chars.length = 7 := by decide +kernel
    omega)⟩

/-- The timers of the engine one short of their thresholds and one before that, and a step owed. -/
theorem test_meets_CharacterTimeSteps :
    (let s := { engaged .request .awaiting with watch := 99 }
     s.works = true ∧ s.owed = [] ∧ s.engagement = some (engagement .request .awaiting) ∧
       s.table.get 5 = some entry ∧ s.watch + 1 = entry.config.deadline.toNat ∧
       98 + 1 < entry.config.deadline.toNat) ∧
    ((engaged .grant .holding).token = 1 ∧ (engaged .grant .holding).engagement = some (engagement .grant .holding)) ∧
    { base .run with owed := [.deadline] }.owed = [.deadline] := by decide +kernel

/-- The uplink receiver with this frame, silence and position in a character. -/
def listening (f : Option OpenFrame) (silence : Nat) (mid : Bool) : State :=
  { base .run with uplink := { frame := f, silence := silence, midCharacter := mid } }

/-- The uplink inside a character, with a silence of one in a frame and outside one, at 62 and at 63. -/
theorem test_meets_CharacterTimeSteps_uplink :
    (listening none 0 true).uplink.midCharacter = true ∧
    (let s := listening (some (OpenFrame.open 10)) 1 false
     s.works = true ∧ s.owed = [] ∧ s.uplink.frame = some (OpenFrame.open 10) ∧ s.uplink.silence = 1 ∧
       s.uplink.midCharacter = false) ∧
    (listening none 1 false).uplink.frame = none ∧ (listening none 62 false).uplink.silence < 63 ∧
    63 ≤ (listening none 63 false).uplink.silence ∧ (base .run).uplinkTransmitter = .idle ∧
    (sendingReply none .run).uplinkTransmitter = .sending ((reply none).wire false) 9 ∧
    9 < ((reply none).wire false).length := by decide +kernel

/-- The segment transmitter with a character left to send and with none, the procedure of an abort with two characters
and with one, and a transmitter that does not hold the line. -/
theorem test_meets_CharacterTimeSteps_transmitter :
    (∀ n, n = 6 ∨ n = 7 ∨ n = 8 →
      { base .run with transmitter := .onLine outgoing n 6 }.transmitter = .onLine outgoing n 6 ∧
      n ≤ outgoing.payload.length + 7) ∧
    { base .run with transmitter := .aborting [⟨false, 1⟩, ⟨false, 2⟩] none }.transmitter =
      .aborting (⟨false, 1⟩ :: ⟨false, 2⟩ :: []) none ∧
    [(⟨false, 2⟩ : LineChar)].length ≤ 1 ∧ (base .run).transmitter.holdsLine = false :=
  ⟨fun n h => ⟨rfl, by rcases h with h | h | h <;> subst h <;> decide⟩, rfl, by decide, rfl⟩

/-- The segment inside a character; between characters, idle and in a run at its limit; silent for one character time in a
frame and outside one, for two, for one short of the gap, and for 62 and 63; under the gate's own frame; MUTED. -/
theorem test_meets_CharacterTimeSteps_segment :
    (let line (state : ReceiverState) (silence activity : Nat) (mid : Bool) : State := { base .run with
       segment := { state := state, silence := silence, activity := activity, midCharacter := mid } }
     let frame := ReceiverState.inFrame (OpenFrame.open 10)
     (line frame 0 299 true).segment.activity < 300 ∧ (line frame 0 300 true).segment.midCharacter = true ∧
     (line frame 0 300 false).segment.activity ≠ 0 ∧ (base .run).policy.jabberLimit.toNat ≤ (line frame 0 300 false).segment.activity ∧
     (line .lineIdle 0 0 false).sdrv = false ∧ (line .lineIdle 0 0 false).segment.activity = 0 ∧
     (line frame 1 300 false).segment.state = .inFrame (OpenFrame.open 10) ∧ (line frame 1 300 false).segment.silence = 1 ∧
     (∀ f, (line .lineIdle 1 5 false).segment.state ≠ .inFrame f) ∧ 2 ≤ (line .lineIdle 2 0 false).segment.silence ∧
     (line .lineIdle 3 0 false).segment.silence + 1 = (base .run).policy.gapTime.toNat ∧
     (line .lineIdle 62 0 false).segment.silence < 63 ∧ (line .lineIdle 63 0 false).segment.silence = 63 ∧
     (line .muted 0 0 false).segment.state = .muted) ∧
    (onLine .request 3 2).transmitter.holdsLine = true ∧ (onLine .request 3 2).sdrv = true :=
  ⟨⟨by decide, rfl, by decide, by decide, rfl, rfl, rfl, rfl, (fun f h => nomatch h), by decide, by decide, by decide, rfl,
    rfl⟩, rfl, by decide⟩

theorem test_meets_DeadlineCloses :
    Engaged (engaged .request .awaiting) (engagement .request .awaiting) 5 entry ∧
    ({ engaged .request .awaiting with watch := 99 }).watch + 1 = entry.config.deadline.toNat :=
  ⟨engaged_on _ _, by decide⟩

theorem test_meets_TokenReclaims :
    (owing 5 (engaged .grant .holding)).SilenceOwed ∧
    Engaged (engaged .grant .holding) (engagement .grant .holding) 5 entry ∧
    (engagement .grant .holding).seen = some 2 ∧ (engaged .grant .holding).token = 1 :=
  ⟨by decide, engaged_on _ _, rfl, rfl⟩

/-- A full Up Queue, both engines waiting, with this preference. -/
def fullUplink (preference : Engine) : State :=
  { queued request (base .run) with
    slot := some [1],
    up := { frames := List.replicate 8 (reply none), exchangeHeld := false, managementHeld := false,
            preference := preference },
    uplinkTransmitter := .sending ((reply none).wire false) 9 }

theorem test_meets_UplinkFrameCompletes :
    (Accounts (fullUplink .exchange) ∧ (fullUplink .exchange).works = true ∧
      (fullUplink .exchange).up.frames = reply none :: List.replicate 7 (reply none) ∧
      (reply none).mark ≠ some .softReset ∧ ExchangeWaits (fullUplink .exchange) ∧
      ManagementWaits (fullUplink .exchange)) ∧
    (¬ ExchangeWaits { fullUplink .management with downQueue := [] } ∧
      ManagementWaits { fullUplink .management with downQueue := [] } ∧
      ¬ ManagementWaits { fullUplink .management with slot := none } ∧
      ExchangeWaits { fullUplink .management with slot := none }) ∧
    (¬ ExchangeWaits (sendingReply none .run) ∧ ¬ ManagementWaits (sendingReply none .run)) := by
  refine ⟨⟨⟨?_, ?_, ?_, ?_, ?_, ?_, ?_, fun g h => by cases h⟩, rfl, rfl, ?_,
      ⟨.inl rfl, ?_, rfl, by decide, rfl, by decide +kernel⟩, ⟨rfl, ?_, rfl, rfl⟩⟩,
    ⟨fun h => h.head rfl, ⟨rfl, ?_, rfl, rfl⟩, fun h => ?_, ⟨.inl rfl, ?_, rfl, by decide, rfl, by decide +kernel⟩⟩,
    fun h => h.head rfl, fun h => ?_⟩
  all_goals first | decide +kernel | exact absurd h.slot (by decide)

/-- The gate may take this frame. -/
theorem queued_mayTake (f : DownFrame) (d : DeviceState) (e : Entry) : MayTake (queued f (withEntry d e)) f [] :=
  ⟨rfl, rfl, rfl, rfl, show 0 < 8 by decide⟩

theorem test_meets_TakeInStandby : MayTake (queued request (base .standby)) request [] ∧ (base .standby).device = .standby :=
  ⟨queued_mayTake _ _ _, rfl⟩

theorem test_meets_TakeBroadcast (kind : DownKind) :
    let f : DownFrame := { kind := kind, dest := 0xFF, payload := [0, 9] }
    let s := queued f (base .run)
    MayTake s f [] ∧ s.device = .run ∧ f.dest = 0xFF ∧ s.policy.broadcastAllowed = true ∧
    MayTake { s with policy := { s.policy with broadcastAllowed := false } } f [] :=
  ⟨queued_mayTake _ _ _, rfl, rfl, rfl, ⟨rfl, rfl, rfl, rfl, show 0 < 8 by decide⟩⟩

/-- The gate takes this frame for this entry. -/
theorem queued_takes (f : DownFrame) (e : Entry) (he : e.Sound Policy.default) (hn : e.pending = none)
    (hd : f.dest = e.config.outer) : TakesFor (queued f (withEntry .run e)) f [] 5 e :=
  ⟨queued_mayTake _ _ _, rfl, oneEntry_sound rfl policy_sound he hn,
    withEntry_at .run _, hd⟩

/-- The sample entry DISABLED. -/
def closedEntry : Entry := Entry.fresh { sample with admin := .disabled } 8

/-- The sample entry without polled class. -/
def holderOnly : Entry := Entry.fresh { sample with polled := false, deadline := 0 } 8

/-- The sample entry without token class. -/
def polledOnly : Entry := Entry.fresh { sample with token := false, tokenCap := 0, publishDivider := 0 } 8

/-- The entries the takes use are sound. -/
theorem take_entries_sound :
    closedEntry.Sound Policy.default ∧ holderOnly.Sound Policy.default ∧ polledOnly.Sound Policy.default ∧
    entry.Sound Policy.default ∧ (barred 1).Sound Policy.default ∧ (barred 2).Sound Policy.default := by
  refine ⟨entry_sound _ _ (.inl rfl) (sample_sound _ (by decide)) ?_ ?_ rfl ?_ ?_ rfl,
    entry_sound _ _ (.inl rfl) (sample_sound _ (by decide)) ?_ ?_ rfl ?_ ?_ rfl,
    entry_sound _ _ (.inl rfl) (sample_sound _ (by decide)) ?_ ?_ rfl ?_ ?_ rfl,
    entry_sound _ _ (.inl rfl) (sample_sound _ (by decide)) ?_ ?_ rfl ?_ ?_ rfl,
    entry_sound _ _ (.inl rfl) (sample_sound _ (by decide)) ?_ ?_ rfl ?_ ?_ rfl,
    entry_sound _ _ (.inl rfl) (sample_sound _ (by decide)) ?_ ?_ rfl ?_ ?_ rfl⟩
  all_goals decide +kernel

/-- A GRANT to the sample station of these two budget characters. -/
def grant (h l : Byte) : DownFrame := { kind := .grant, dest := 10, payload := [h, l] }

/-- A REQUEST one character too long. -/
def longRequest : DownFrame := { request with payload := [1, 2, 3, 4, 5] }

theorem test_meets_TakeRefused :
    (let f : DownFrame := { request with dest := 99 }
     MayTake (queued f (base .run)) f [] ∧ f.dest ≠ 0xFF ∧
       ∀ i e, (queued f (base .run)).table.get i = some e → e.config.outer ≠ f.dest) ∧
    (TakesFor (queued request (withEntry .run closedEntry)) request [] 5 closedEntry ∧ closedEntry.status = .disabled) ∧
    (TakesFor (queued request (withEntry .run holderOnly)) request [] 5 holderOnly ∧
      FailsChecks request holderOnly 5 0 ∧ holderOnly.status = .enabled) ∧
    (TakesFor (queued (grant 0 9) (withEntry .run polledOnly)) (grant 0 9) [] 5 polledOnly ∧
      FailsChecks (grant 0 9) polledOnly 6 9) ∧
    (TakesFor (queued longRequest (base .run)) longRequest [] 5 entry ∧ FailsChecks longRequest entry 7 5) ∧
    TakesFor (queued (grant 0 0) (base .run)) (grant 0 0) [] 5 entry ∧ FailsChecks (grant 0 0) entry 6 0 := by
  obtain ⟨h1, h2, h3, h4, -, -⟩ := take_entries_sound
  refine ⟨⟨queued_mayTake _ _ _, by decide, fun i e h => ?_⟩, ⟨queued_takes _ _ h1 rfl rfl, rfl⟩,
    ⟨queued_takes _ _ h2 rfl rfl, .inl (by decide), rfl⟩, ⟨queued_takes _ _ h3 rfl rfl, .inr (.inl (by decide))⟩,
    ⟨queued_takes _ _ h4 rfl rfl, .inr (.inr (.inl (by decide)))⟩, queued_takes _ _ h4 rfl rfl,
    .inr (.inr (.inr (by decide)))⟩
  rw [(withEntry_get (e := entry) rfl h).2]
  decide

theorem test_meets_TakeForBarredEntry :
    (TakesFor (queued request (withEntry .run (barred 2))) request [] 5 (barred 2) ∧ 2 ≤ (barred 2).probeCountdown) ∧
    (TakesFor (queued request (withEntry .run (barred 1))) request [] 5 (barred 1) ∧ (barred 1).probeCountdown = 1 ∧
      (barred 1).status = .barred ∧ PassesChecks request (barred 1)) ∧
    FailsChecks longRequest (barred 1) 7 5 := by
  obtain ⟨-, -, -, -, h1, h2⟩ := take_entries_sound
  exact ⟨⟨queued_takes _ _ h2 rfl rfl, by decide⟩,
    ⟨queued_takes _ _ h1 rfl rfl, rfl, rfl, ⟨by decide, by decide⟩⟩, .inr (.inr (.inl (by decide)))⟩

/-- A REQUEST at the largest length, and GRANTs at and above the token cap. -/
theorem test_meets_TakeForwarded (f : DownFrame)
    (h : f = { request with payload := [1, 2, 3, 4] } ∨ f = grant 0 50 ∨ f = grant 0 51) :
    TakesFor (queued f (base .run)) f [] 5 entry ∧ entry.status = .enabled ∧ PassesChecks f entry := by
  obtain ⟨-, -, -, h4, -, -⟩ := take_entries_sound
  rcases h with h | h | h <;> subst h <;>
    exact ⟨queued_takes _ _ h4 rfl rfl, rfl, ⟨by decide, by decide⟩⟩

/-- The gate in OBSERVE with this frame and this entry. -/
def observing (f : DownFrame) (e : Entry) : State :=
  { queued f (withEntry .run e) with policy := { Policy.default with mode := .observe } }

theorem observing_takes (f : DownFrame) (e : Entry)
    (he : e.Sound { Policy.default with mode := .observe }) (hn : e.pending = none) (hd : f.dest = e.config.outer) :
    TakesFor (observing f e) f [] 5 e :=
  ⟨⟨rfl, rfl, rfl, rfl, show 0 < 8 by decide⟩, rfl, oneEntry_sound rfl observing_sound he hn,
    withEntry_at .run _, hd⟩

theorem test_meets_TakeInObserve :
    TakesFor (observing request holderOnly) request [] 5 holderOnly ∧
    TakesFor (observing (grant 0 9) polledOnly) (grant 0 9) [] 5 polledOnly ∧
    TakesFor (observing request closedEntry) request [] 5 closedEntry ∧
    TakesFor (observing { request with kind := .send } holderOnly) { request with kind := .send } [] 5 holderOnly ∧
    TakesFor (observing longRequest entry) longRequest [] 5 entry ∧
    entry.config.maxRequest.toNat < longRequest.payload.length := by
  have h (e : Entry) (h : e = closedEntry ∨ e = holderOnly ∨ e = polledOnly ∨ e = entry) :
      e.Sound { Policy.default with mode := .observe } := by
    rcases h with h | h | h | h <;> subst h <;>
      exact entry_sound _ _ (.inr rfl) (sample_sound _ (by decide)) (by decide) (by decide) rfl (by decide) (by decide) rfl
  exact ⟨observing_takes _ _ (h _ (by simp)) rfl rfl, observing_takes _ _ (h _ (by simp)) rfl rfl,
    observing_takes _ _ (h _ (by simp)) rfl rfl, observing_takes _ _ (h _ (by simp)) rfl rfl,
    observing_takes _ _ (h _ (by simp)) rfl rfl, by decide⟩

/-- Every management statement's request can be in READY: any code with any arguments, in any device state that
works. -/
theorem test_meets_RequestReady (code : Byte) (args : List Byte) (d : DeviceState) (h : d.works = true) :
    RequestReady (asking code args (base d)) code args := asking_ready code args h

theorem test_meets_IdentifyAnswers : RequestReady (asking 1 [] (base .run)) 1 [] := asking_ready _ _ rfl

theorem test_meets_GetStateAnswers :
    RequestReady (asking 2 [] (engaged .grant .holding)) 2 [] ∧
    (engaged .grant .holding).engagement = some (engagement .grant .holding) := ⟨asking_ready _ _ rfl, rfl⟩

theorem test_meets_SetStateRows (v : Byte) (d : DeviceState) (h : d = .standby ∨ d = .run ∨ d = .drain) :
    RequestReady (asking 3 [v] (base d)) 3 [v] ∧
    RequestReady (asking 3 [v] { engaged .send .sending with device := d }) 3 [v] := by
  rcases h with h | h | h <;> subst h <;> exact ⟨asking_ready _ _ rfl, asking_ready _ _ rfl⟩

/-- A policy that breaks P2, and one that breaks P7 with an entry in the table. -/
theorem test_meets_PolicyReadAndChecked :
    RequestReady (asking 4 [] (base .run)) 4 [] ∧ RequestReady (asking 5 policyArgs (base .run)) 5 policyArgs ∧
    RequestReady (asking 5 policyArgs (base .drain)) 5 policyArgs ∧
    readPolicyRecord policyArgs = some { Policy.default with gapTime := 5 } ∧
    FirstFails (policyRules (base .standby).table { Policy.default with gapTime := 2 }) 0x12 5 ∧
    FirstFails (policyRules (base .standby).table { Policy.default with gateAddress := 10 }) 0x17 6 := by
  refine ⟨asking_ready _ _ rfl, asking_ready _ _ rfl, asking_ready _ _ rfl, by decide +kernel, ?_, ?_⟩
  · exact ⟨[_], _, _, rfl, by simp [Policy.default], by decide⟩
  · exact ⟨[_, _, _, _, _, _], _, _, rfl, by simp [Policy.default, Rate.default, Rate.legal],
      fun h => h 5 entry (by decide +kernel) rfl⟩

/-- A write that shortens the gap and lowers the limit and frees a barred entry for OBSERVE; the quiet line and JABBER may
be owed as it comes. -/
theorem test_meets_PolicyWritten :
    ({ nearlyQuiet (base .standby) with owed := [.quiet] }.recounted { Policy.default with gapTime := 5 }).segment.silence = 4 ∧
    ({ noisy 300 (base .standby) with owed := [.jabber] }.recounted
      { Policy.default with jabberLimit := 400 }).segment.activity = 301 ∧
    let args : List Byte := [254, 3, 0, 250, 3, 8, 1, 1, 0, 3, 0xF6, 0, 3, 0xF6]
    let s := asking 5 args (noisy 299 (withEntry .standby (barred 8)))
    let p : Policy := { Policy.default with gapTime := 3, jabberLimit := 250, mode := .observe }
    RequestReady s 5 args ∧ readPolicyRecord args = some p ∧ s.device = .standby ∧ s.engagement = none ∧
    AllHold (policyRules s.table p) := by
  refine ⟨by decide, by decide, asking_ready _ _ rfl, by decide +kernel, rfl, rfl, ?_⟩
  intro r hr
  simp only [policyRules, List.mem_cons, List.not_mem_nil, or_false] at hr
  rcases hr with h | h | h | h | h | h | h <;> subst h
  all_goals first
    | decide
    | simp [Policy.default, Rate.default, Rate.legal]

/-- A write of entry 5 itself, engaged and not, that passes E1 to E10; one that breaks E2. -/
theorem test_meets_WriteEntryActs :
    let args := entryArgs 5
    let c : Configuration := { sample with outer := 11, inner := 21 }
    RequestReady (asking 6 args (base .run)) 6 args ∧ (base .run).engagedIndex ≠ some 5 ∧
    RequestReady (asking 6 args (engaged .request .awaiting)) 6 args ∧
    (engaged .request .awaiting).engagedIndex = some 5 ∧ (engaged .request .awaiting).table.get 5 = some entry ∧
    AllHold (entryRules (base .run).table 254 5 c) ∧
    FirstFails (entryRules (base .run).table 254 5 { c with outer := 254 }) 2 5 := by
  refine ⟨asking_ready _ _ rfl, by decide, asking_ready _ _ rfl, rfl, by decide +kernel, ?_, ?_⟩
  · intro r hr
    simp only [entryRules, List.mem_cons, List.not_mem_nil, or_false] at hr
    rcases hr with h | h | h | h | h | h | h | h | h | h <;> subst h
    all_goals first
      | decide
      | (intro i e hi he; exact absurd (congrArg Fin.val (withEntry_get (e := entry) rfl he).1) hi)
  · exact ⟨[_], _, _, rfl, by simp, by decide⟩

theorem test_meets_RuntimeFieldsOfWrites :
    entry.config.outer ≠ ({ sample with outer := 11 } : Configuration).outer ∧ entry.config.outer = sample.outer ∧
    entry.config.inner = sample.inner := by decide

theorem test_meets_ClearEntryActs :
    RequestReady (asking 7 [64] (base .run)) 7 [64] ∧ 63 < (64 : Byte).toNat ∧
    RequestReady (asking 7 [63] (base .run)) 7 [63] ∧ (63 : Fin 64).val = (63 : Byte).toNat ∧
    (base .run).table.get 63 = none ∧ RequestReady (asking 7 [5] (base .run)) 7 [5] ∧
    (asking 7 [5] (base .run)).table.get 5 = some entry ∧ (base .run).engagedIndex ≠ some 5 ∧
    RequestReady (asking 7 [5] (engaged .send .sending)) 7 [5] ∧ (engaged .send .sending).engagedIndex = some 5 :=
  ⟨asking_ready _ _ rfl, by decide, asking_ready _ _ rfl, by decide, by decide +kernel, asking_ready _ _ rfl,
    by decide +kernel, by decide, asking_ready _ _ rfl, rfl⟩

theorem test_meets_EntriesRead (v n : Byte) :
    RequestReady (asking 8 [v, n] (base .run)) 8 [v, n] ∧ RequestReady (asking 9 [n] (base .run)) 9 [n] :=
  ⟨asking_ready _ _ rfl, asking_ready _ _ rfl⟩

theorem test_meets_RecordsAsSent :
    ({ entry with pending := some (.write sample) } : Entry).pending = some (.write sample) ∧
    (barred 1).status = .barred ∧ ({ entry with lastOutcome := some .jabber } : Entry).lastOutcome = some .jabber :=
  ⟨rfl, rfl, rfl⟩

theorem test_meets_ReleaseAndClearStats :
    (RequestReady (asking 11 [64] (base .run)) 11 [64] ∧ 63 < (64 : Byte).toNat) ∧
    (RequestReady (asking 11 [6] (base .run)) 11 [6] ∧ (base .run).table.get 6 = none) ∧
    (RequestReady (asking 11 [5] (withEntry .run (barred 8))) 11 [5] ∧
      (withEntry .run (barred 8)).table.get 5 = some (barred 8) ∧ (barred 8).status = .barred) ∧
    (RequestReady (asking 11 [5] (base .run)) 11 [5] ∧ entry.status ≠ .barred) ∧
    RequestReady (asking 12 [0xFF] (base .run)) 12 [0xFF] ∧ RequestReady (asking 12 [5] (base .run)) 12 [5] ∧
    (asking 12 [5] (base .run)).table.get 5 = some entry :=
  ⟨⟨asking_ready _ _ rfl, by decide⟩, ⟨asking_ready _ _ rfl, by decide +kernel⟩,
    ⟨asking_ready _ _ rfl, by decide +kernel, rfl⟩, ⟨asking_ready _ _ rfl, by decide⟩, asking_ready _ _ rfl,
    asking_ready _ _ rfl, by decide +kernel⟩

theorem test_meets_TakeEventsActs :
    RequestReady (asking 13 [0] stray) 13 [0] ∧ RequestReady (asking 13 [9] stray) 13 [9] ∧
    RequestReady (asking 13 [8] stray) 13 [8] ∧ stray.events.records.length ≤ (1 : Byte).toNat :=
  ⟨asking_ready _ _ rfl, asking_ready _ _ rfl, asking_ready _ _ rfl, by decide⟩

theorem test_meets_LineClockReadAndSet (w : Word) :
    RequestReady (asking 14 [] (base .run)) 14 [] ∧
    RequestReady (asking 15 (wordBytes w) (base .run)) 15 (wordBytes w) := ⟨asking_ready _ _ rfl, asking_ready _ _ rfl⟩

theorem test_meets_AbandonActs (kind : DownKind) (state : EngagementState) :
    RequestReady (asking 16 [] (engaged kind state)) 16 [] ∧
    (asking 16 [] (engaged kind state)).engagement = some (engagement kind state) ∧
    RequestReady (asking 16 [] (base .run)) 16 [] ∧ (asking 16 [] (base .run)).engagement = none :=
  ⟨asking_ready _ _ rfl, rfl, asking_ready _ _ rfl, rfl⟩

theorem test_meets_MalformedRequestsAnswered :
    (RequestReady (asking 18 [] (base .run)) 18 [] ∧ 17 < (18 : Byte).toNat) ∧
    RequestReady (asking 0 [] (base .run)) 0 [] ∧
    (let s : State := { asking 1 [] (base .run) with slot := some [] }
     s.slot = some [] ∧ s.up.managementHeld = true ∧ s.works = true) ∧
    (RequestReady (asking 1 [9] (base .run)) 1 [9] ∧ (Instr.identify, (1 : Byte), 1) ∈ requestTable ∧
      [(9 : Byte)].length + 1 ≠ 1) :=
  ⟨⟨asking_ready _ _ rfl, by decide⟩, asking_ready _ _ rfl, ⟨rfl, rfl, rfl⟩, asking_ready _ _ rfl,
    by simp [requestTable], by decide⟩

theorem test_meets_NoOccasionNoEffect :
    ((Instr.identify, (1 : Byte), 1) ∈ requestTable ∧ ∀ args, ¬ RequestReady (base .run) 1 args) ∧
    (base .init).works = false ∧ (base .run).segment.activity < (base .run).policy.jabberLimit.toNat ∧
    (base .run).segment.silence + 1 ≠ (base .run).policy.gapTime.toNat ∧
    (base .run).transmitter = .idle ∧ (base .run).engagement = none ∧ (base .run).uplinkTransmitter = .idle ∧
    (base .run).uplink.frame = none ∧ (base .run).segment.state = .lineIdle ∧ (base .run).device ≠ .reset ∧
    (base .run).device ≠ .init ∧ (base .run).downQueue = [] ∧ (base .run).slot = none ∧
    (asking 17 [] (base .run)).slot = some (17 :: []) ∧ (base .run).token ≠ 1 ∧ (base .run).uplink.silence ≠ 1 ∧
    (base .run).segment.silence ≠ 1 :=
  ⟨⟨by simp [requestTable], fun args h => absurd h.place (by decide)⟩, rfl, by decide, by decide, rfl, rfl, rfl, rfl, rfl,
    by decide, by decide, rfl, rfl, rfl, by decide, by decide, by decide⟩

/-- A deadline one character time away, the last echo not yet due, an equal echo, two characters left of an abort, and
frames that wait for another character than their second CHECK. -/
theorem test_meets_NoOccasionNoEffect_early :
    (let s := { engaged .request .awaiting with watch := 98 }
     s.engagement = some (engagement .request .awaiting) ∧ s.table.get 5 = some entry ∧
       s.watch + 1 ≠ entry.config.deadline.toNat) ∧
    ((onLine .request 6 5).transmitter = .onLine outgoing 6 5 ∧ 5 ≠ outgoing.payload.length + 5 ∧ 6 < 5 + 2 ∧
      (∃ c, outgoing.chars[5]? = some c) ∧ outgoing.chars[7]? = none) ∧
    2 ≤ [(⟨false, 1⟩ : LineChar), ⟨false, 2⟩].length ∧
    ¬ ((OpenFrame.open 10).damage = none ∧
      ∃ len : Byte, (OpenFrame.open 10).kept[3]? = some len ∧ (OpenFrame.open 10).kept.length = len.toNat + 5) := by
  refine ⟨⟨rfl, withEntry_at .run _, by decide⟩, ⟨rfl, by decide, by decide, ⟨_, rfl⟩, by decide +kernel⟩, by decide, ?_⟩
  rintro ⟨_, len, h, _⟩
  cases h

end Sys2Proof.Tests
end

