-- ==== Sys2Proof/WellFormed.lean ====
section
/-! DEFINITION. Which commands are well formed. Every operand's type is exact (a character of 8 bits and a mark bit, a
port), so the spec gives no further check on an operand, and every command is well formed. -/

namespace Sys2Proof

/-- A port operand: either port has a receiver (R26). -/
def Port.wellFormed : Port → Bool
  | .uplink => true
  | .segment => true

/-- A command is well formed: one arm for each constructor; no operand carries a value its type admits and the spec
does not. -/
def Instr.wellFormed : Instr → Bool
  | .resetAsserted => true
  | .resetReleased => true
  | .initialisationCompletes => true
  | .uplinkFrameEnd _ => true
  | .fragmentSilence p => p.wellFormed
  | .headArrival _ => true
  | .segmentFrameEnd _ => true
  | .jabber => true
  | .lineQuiet => true
  | .transmissionComplete => true
  | .echoFault _ => true
  | .abortEnd => true
  | .deadlineExpiry => true
  | .tokenExpiry => true
  | .uplinkTransmissionComplete => true
  | .take => true
  | .identify => true
  | .getState => true
  | .setState => true
  | .readPolicy => true
  | .writePolicy => true
  | .writeEntry => true
  | .clearEntry => true
  | .readEntries => true
  | .readNext => true
  | .findEntry => true
  | .release => true
  | .clearStats => true
  | .takeEvents => true
  | .readTime => true
  | .setTime => true
  | .abandon => true
  | .softReset => true
  | .badCommand => true
  | .characterTaken p _ => p.wellFormed
  | .characterTime => true

end Sys2Proof
end

section
/-! SUPPORT. The TAKE command where the gate may take a frame, and the local answer of STANDBY (R66, R81). -/

namespace Sys2Proof.Machine

/-- With the conditions of a take, in a device state that takes, every condition of R66 but the reservation holds. -/
theorem MayTake.exchangeAsks {s : State} {f : DownFrame} {rest : List DownFrame} (h : MayTake s f rest)
    (hd : s.device = .run ∨ s.device = .standby) : s.exchangeAsks = true := by
  simp [State.exchangeAsks, h.noSoftReset, h.idle, h.head, h.place, hd]

/-- The reservation is granted at once, so the take is made (R66, R132). -/
theorem MayTake.exec_take {s : State} {f : DownFrame} {rest : List DownFrame} (h : MayTake s f rest)
    (hd : s.device = .run ∨ s.device = .standby) : exec .take s = .next s.takeHead := by
  have room : s.up.total < Config.upCapacity := h.room
  show execTake s = _
  simp [execTake, h.exchangeAsks hd, room]

/-- The head frame in STANDBY is refused with reason STANDBY and detail 0, with no record (R81): the branch of
`State.takeHead` that does not reach `State.examine`, where the lookup and the checks stand. -/
theorem MayTake.takeHead_standby {s : State} {f : DownFrame} {rest : List DownFrame} (h : MayTake s f rest)
    (hd : s.device = .standby) : s.takeHead = { s with downQueue := rest }.refusing f [] 8 0 := by
  have works : s.works = true := by simp [State.works, hd, DeviceState.works]
  rw [State.takeHead_eq h, if_pos hd]
  exact State.answerLocally_eq { s with downQueue := rest } h.place works f .standby 0 []

/-- Settles O39: the take is made, and its STANDBY branch is the local answer. -/
theorem takeInStandby : Obligations.TakeInStandby := by
  intro s f rest h hd
  rw [h.exec_take (.inr hd), h.takeHead_standby hd]

end Sys2Proof.Machine
end

section
/-! SUPPORT. The DEADLINE_EXPIRY command: the close of an exchange in AWAITING as SILENT (R88, R97). -/

namespace Sys2Proof.Machine

/-- In RUN and in DRAIN the ports and engines work (R38, R60, R140). -/
theorem Engaged.works {s : State} {g : Engagement} {j : Fin 64} {e : Entry} (h : Engaged s g j e) :
    s.works = true := by
  rcases h.device with hd | hd <;> simp [State.works, DeviceState.works, hd]

/-- The deadline of an engagement is the one configured in its entry (R6, R88). -/
theorem Engaged.engagedDeadline {s : State} {g : Engagement} {j : Fin 64} {e : Entry} (h : Engaged s g j e) :
    s.engagedDeadline g = e.config.deadline.toNat := by
  simp [State.engagedDeadline, State.entryAt, h.index, h.entry]

/-- One step short of the deadline in AWAITING, the command has its occasion (R88). -/
theorem Engaged.exec_deadlineExpiry {s : State} {g : Engagement} {j : Fin 64} {e : Entry} (h : Engaged s g j e)
    (hs : g.state = .awaiting) (hw : s.watch + 1 = e.config.deadline.toNat) :
    exec .deadlineExpiry s = .next (s.expireDeadline g) := by
  have due : s.deadlineDue = some g := by
    simp [State.deadlineDue, h.opened, hs, h.engagedDeadline, hw]
  show execDeadlineExpiry s = _
  simp [execDeadlineExpiry, State.takeDeadline, due]

/-- The expiry is a failure charged to the entry and then a close to IDLE, so in one piece it is the state of
`State.charge_eq` closed by `State.closeRequest_eq` (R88, R97). -/
theorem Engaged.expireDeadline_eq {s : State} {g : Engagement} {j : Fin 64} {e : Entry} (h : Engaged s g j e) :
    s.expireDeadline g = { s with watch := e.config.deadline.toNat }.closing j
      (e.failed s.policy Statistics.addSilent .silent)
      (s.eventNow .silent (some j) (some g.outer) e.config.deadline :: e.strikeRecords s j g.outer)
      (substituteOf g.outer 11 e.config.deadline)
      (s.closedNow j g.inner) := by
  have detail : BitVec.ofNat 16 e.config.deadline.toNat = e.config.deadline := by simp
  have charged := State.charge_eq (s := { s with watch := e.config.deadline.toNat }) h.index h.entry
    Statistics.addSilent .silent (some .silent) e.config.deadline
  have closed := State.closeRequest_eq (s := { s with watch := e.config.deadline.toNat }) h.works h.opened h.index
    (e.failed s.policy Statistics.addSilent .silent)
    (s.eventNow .silent (some j) (some g.outer) e.config.deadline :: e.strikeRecords s j g.outer)
    (substituteOf g.outer 11 e.config.deadline)
  simp only [State.expireDeadline, h.engagedDeadline, detail, charged]
  exact closed

/-- Settles O36: the command has its occasion, and the expiry is the close of the statement. -/
theorem deadlineCloses : Obligations.DeadlineCloses := by
  intro s g j e h hs hw
  rw [h.exec_deadlineExpiry hs hw, h.expireDeadline_eq]
  rfl

end Sys2Proof.Machine
end

section
/-! SUPPORT. The management commands that read or set one value: IDENTIFY, SET_STATE, READ_TIME and SET_TIME (R157,
R174, R176, R184). -/

namespace Sys2Proof.Machine

/-! ### The answer to a request in READY -/

/-- A request in READY of the right length is answered with the reply of its act, on the state the act leaves, provided
the ports and engines still work there, so that an idle uplink transmitter begins the reply (R42, R170, R172). -/
theorem RequestReady.outcome {s t : State} {code : Byte} {args : List Byte} {r : Reply} (h : RequestReady s code args)
    {len : Nat} {act : State → List Byte → State × Reply} (hl : args.length + 1 = len) (ha : act s args = (t, r))
    (hw : t.works = true) :
    (.next (s.carryOut code len act) : Host.Outcome State Fault Refusal) =
      .next (t.replying code r.status.code r.detail r.results r.mark) := by
  rw [State.carryOut_ready h len act hl, ha]
  exact congrArg _ (State.reply_eq t hw code r)

/-- Settles O45: the act changes nothing, and its results are the constants of Sys2Proof/Config.lean. -/
theorem identifyAnswers : Obligations.IdentifyAnswers := by
  intro s h
  exact h.outcome (r := Reply.ok identity) rfl rfl h.works

/-! ### The Line Clock -/

/-- Settles O57: READ_TIME sends the four characters of the clock, and SET_TIME reads them back as the value. -/
theorem lineClockReadAndSet : Obligations.LineClockReadAndSet := by
  refine ⟨fun s h => h.outcome (r := Reply.ok (wordBytes s.clock)) rfl rfl h.works, fun s w h => ?_⟩
  refine h.outcome (t := { s with clock := w }) (r := Reply.ok []) rfl ?_ h.works
  exact congrArg (fun c : Word => ({ s with clock := c }, Reply.ok [])) (word_getD w)

/-! ### The device state -/

/-- Where the ports and engines work, SET_STATE RUN brings RUN (R157). -/
theorem DeviceState.toRun_of_works {d : DeviceState} (h : d.works = true) : d.toRun = .run := by
  cases d with
  | reset | init => cases h
  | standby | run | drain => rfl

/-- A device state written over itself changes nothing. -/
theorem State.withDevice_same {s : State} {d : DeviceState} (h : s.device = d) : { s with device := d } = s := by
  rw [← h]

/-- SET_STATE RUN, in every state the engine works in (R157, R176). -/
theorem RequestReady.setState_run {s : State} (h : RequestReady s 3 [1]) :
    exec .setState s = .next ({ s with device := .run }.replying 3 0 0 [1] none) := by
  have device : s.device.toRun = .run := DeviceState.toRun_of_works h.works
  have act : setStateAct s [1] = ({ s with device := .run }, Reply.ok [1]) := by
    simp [setStateAct, device, DeviceState.code]
  exact h.outcome rfl act rfl

/-- SET_STATE STANDBY enters the device state d that R157 gives, and answers its code (R176). -/
theorem RequestReady.setState_standby {s : State} (h : RequestReady s 3 [0]) {d : DeviceState}
    (hd : s.device.toStandby s.engagement.isSome = d) (hw : d.works = true) :
    exec .setState s = .next ({ s with device := d }.replying 3 0 0 [d.code] none) := by
  have act : setStateAct s [0] = ({ s with device := d }, Reply.ok [d.code]) := by simp [setStateAct, hd]
  exact h.outcome rfl act hw

/-- SET_STATE with any other target (R176). -/
theorem RequestReady.setState_badValue {s : State} {v : Byte} (h : RequestReady s 3 [v]) (h0 : v ≠ 0) (h1 : v ≠ 1) :
    exec .setState s = .next (s.replying 3 5 0 [] none) := by
  have act : setStateAct s [v] = (s, Reply.plain .badValue 0) := by
    rw [setStateAct, if_neg (by simpa using h0), if_neg (by simpa using h1)]
  exact h.outcome rfl act h.works

/-- Settles O47: one row for each target and device state; in the two rows that change nothing the device state is
written over itself. -/
theorem setStateRows : Obligations.SetStateRows := by
  intro s v h
  refine ⟨?run, ?drain, ?idle, ?standby, ?draining, fun h0 h1 => h.setState_badValue h0 h1⟩
  case run =>
    rintro rfl
    exact h.setState_run
  case drain =>
    rintro rfl hd hg
    exact h.setState_standby (d := .drain) (by simp [hd, DeviceState.toStandby, Option.isSome_iff_ne_none.mpr hg]) rfl
  case idle =>
    rintro rfl hd hg
    exact h.setState_standby (d := .standby) (by simp [hd, hg, DeviceState.toStandby]) rfl
  case standby =>
    rintro rfl hd
    have row := h.setState_standby (d := .standby) (by simp [hd, DeviceState.toStandby]) rfl
    rwa [State.withDevice_same hd] at row
  case draining =>
    rintro rfl hd
    have row := h.setState_standby (d := .drain) (by simp [hd, DeviceState.toStandby]) rfl
    rwa [State.withDevice_same hd] at row

end Sys2Proof.Machine
end

section
/-! SUPPORT. The two lookups of the Station Table (R2, R3) and FIND_ENTRY (R180). -/

namespace Sys2Proof.Machine

/-- A search of the table for the entry whose key is this address, where no two valid entries share a key (R4): the
search finds an index exactly where the entry there has the address. -/
theorem find?_entry_iff {t : Table} {key : Entry → Byte} {a : Byte} {test : Fin 64 → Bool}
    (distinct : ∀ i j x y, t.get i = some x → t.get j = some y → key x = key y → i = j)
    (tests : ∀ j, test j = true ↔ ∃ e, t.get j = some e ∧ key e = a) (i : Fin 64) :
    (List.finRange 64).find? test = some i ↔ ∃ e, t.get i = some e ∧ key e = a := by
  constructor
  · intro found
    exact (tests i).mp (List.find?_some found)
  · rintro ⟨e, he, ha⟩
    cases found : (List.finRange 64).find? test with
    | none => exact absurd ((tests i).mpr ⟨e, he, ha⟩) (List.find?_eq_none.mp found i (List.mem_finRange i))
    | some j =>
      obtain ⟨x, hx, hk⟩ := (tests j).mp (List.find?_some found)
      rw [distinct j i x e hx he (hk.trans ha.symm)]

/-- A lookup with its guard for the keys 254 and 255 finds the same: no valid entry's key is above 253 (R2, R3, R5). -/
theorem guarded_find?_entry_iff {t : Table} {key : Entry → Byte} {a : Byte} {test : Fin 64 → Bool}
    (low : ∀ i e, t.get i = some e → (key e).toNat ≤ 253)
    (distinct : ∀ i j x y, t.get i = some x → t.get j = some y → key x = key y → i = j)
    (tests : ∀ j, test j = true ↔ ∃ e, t.get j = some e ∧ key e = a) (i : Fin 64) :
    (if 254 ≤ a.toNat then none else (List.finRange 64).find? test) = some i ↔
      ∃ e, t.get i = some e ∧ key e = a := by
  by_cases high : 254 ≤ a.toNat
  · refine iff_of_false (by simp [high]) ?_
    rintro ⟨e, he, rfl⟩
    have := low i e he
    omega
  · rw [if_neg high]
    exact find?_entry_iff distinct tests i

/-- The lookup by outer address (R2). -/
theorem TableSound.findOuter_iff {s : State} (h : TableSound s) (a : Byte) (i : Fin 64) :
    findOuter s.table a = some i ↔ ∃ e, s.table.get i = some e ∧ e.config.outer = a := by
  refine guarded_find?_entry_iff (fun i e he => (h.entries i e he).config.outer) h.outers (fun j => ?_) i
  cases s.table.get j <;> simp

/-- The lookup by inner address (R3). -/
theorem TableSound.findInner_iff {s : State} (h : TableSound s) (a : Byte) (i : Fin 64) :
    findInner s.table a = some i ↔ ∃ e, s.table.get i = some e ∧ e.config.inner = a := by
  refine guarded_find?_entry_iff (fun i e he => (h.entries i e he).config.inner) h.inners (fun j => ?_) i
  cases s.table.get j <;> simp

/-- FIND_ENTRY where the lookup answers an index (R180). -/
theorem RequestReady.findEntry_found {s : State} {a : Byte} {i : Fin 64} (h : RequestReady s 10 [a])
    (found : findOuter s.table a = some i) :
    exec .findEntry s = .next (s.replying 10 0 0 [BitVec.ofNat 8 i.val] none) := by
  have act : findEntryAct s [a] = (s, Reply.ok [BitVec.ofNat 8 i.val]) := by simp [findEntryAct, found]
  exact h.outcome rfl act h.works

/-- FIND_ENTRY where the lookup answers none (R180). -/
theorem RequestReady.findEntry_notFound {s : State} {a : Byte} (h : RequestReady s 10 [a])
    (missing : findOuter s.table a = none) :
    exec .findEntry s = .next (s.replying 10 8 (codeDetail a) [] none) := by
  have act : findEntryAct s [a] = (s, Reply.plain .notFound (codeDetail a)) := by simp [findEntryAct, missing]
  exact h.outcome rfl act h.works

/-- Settles O29: FIND_ENTRY answers what the lookup by outer address finds. -/
theorem lookupsAndFindEntry : Obligations.LookupsAndFindEntry := by
  intro s sound
  refine ⟨sound.findOuter_iff, sound.findInner_iff, fun a h => ⟨?found, ?missing⟩⟩
  case found =>
    intro i e he ha
    exact h.findEntry_found ((sound.findOuter_iff a i).mpr ⟨e, he, ha⟩)
  case missing =>
    intro none_has
    refine h.findEntry_notFound (Option.eq_none_iff_forall_ne_some.mpr fun i found => ?_)
    obtain ⟨e, he, ha⟩ := (sound.findOuter_iff a i).mp found
    exact none_has i e he ha

end Sys2Proof.Machine
end

section
/-! SUPPORT. The management commands on one entry: CLEAR_ENTRY, RELEASE and CLEAR_STATS (R18, R22, R179, R182). -/

namespace Sys2Proof.Machine

/-! ### CLEAR_ENTRY -/

/-- CLEAR_ENTRY on a character that is no index (R179). -/
theorem clearEntryAct_badIndex (s : State) {v : Byte} (hv : 63 < v.toNat) :
    clearEntryAct s [v] = (s, Reply.plain .badIndex (codeDetail v)) := by
  simp [clearEntryAct, toIndex_none hv]

/-- CLEAR_ENTRY on an empty entry (R18). -/
theorem clearEntryAct_empty {s : State} {v : Byte} {i : Fin 64} (hi : i.val = v.toNat) (he : s.table.get i = none) :
    clearEntryAct s [v] = (s, Reply.ok []) := by
  simp [clearEntryAct, toIndex_some hi, he]

/-- CLEAR_ENTRY on the engaged entry: the DELETE replaces any pending update (R18, R20). -/
theorem clearEntryAct_engaged {s : State} {v : Byte} {i : Fin 64} {e : Entry} (hi : i.val = v.toNat)
    (he : s.table.get i = some e) (hg : s.engagedIndex = some i) :
    clearEntryAct s [v] =
      ({ s with table := s.table.set i.val (some { e with pending := some .delete }) }, Reply.plain .pending 0) := by
  simp [clearEntryAct, toIndex_some hi, he, hg, State.holdUpdate, State.modifyEntry_eq he]

/-- CLEAR_ENTRY on any other valid entry (R18). -/
theorem clearEntryAct_valid {s : State} {v : Byte} {i : Fin 64} {e : Entry} (hi : i.val = v.toNat)
    (he : s.table.get i = some e) (hg : s.engagedIndex ≠ some i) :
    clearEntryAct s [v] = ({ s with table := s.table.set i.val none }, Reply.ok []) := by
  simp [clearEntryAct, toIndex_some hi, he, hg, State.setEntry]

/-- Settles O52: one case of the act for each kind of index. -/
theorem clearEntryActs : Obligations.ClearEntryActs := by
  intro s v h
  refine ⟨fun hv => ?badIndex, fun i hi => ⟨fun he => ?empty, fun e he => ⟨fun hg => ?engaged, fun hg => ?valid⟩⟩⟩
  case badIndex => exact h.outcome rfl (clearEntryAct_badIndex s hv) h.works
  case empty => exact h.outcome rfl (clearEntryAct_empty hi he) h.works
  case engaged => exact h.outcome rfl (clearEntryAct_engaged hi he hg) h.works
  case valid => exact h.outcome rfl (clearEntryAct_valid hi he hg) h.works

/-! ### RELEASE and CLEAR_STATS -/

/-- A character that names no valid entry is no index, or the index of an empty entry (R182). -/
theorem toIndex_noEntry {t : Table} {v : Byte}
    (h : 63 < v.toNat ∨ ∃ i : Fin 64, i.val = v.toNat ∧ t.get i = none) :
    toIndex v = none ∨ ∃ i, toIndex v = some i ∧ t.get i = none := by
  rcases h with hv | ⟨i, hi, he⟩
  · exact .inl (toIndex_none hv)
  · exact .inr ⟨i, toIndex_some hi, he⟩

/-- An index is not the character FFh, which stands for every valid entry (R182). -/
theorem index_ne_all {v : Byte} {i : Fin 64} (hi : i.val = v.toNat) : v ≠ 0xFF := by
  rintro rfl
  have : i.val = 255 := hi
  omega

/-- RELEASE on no valid entry (R182). -/
theorem releaseAct_badIndex {s : State} {v : Byte}
    (h : 63 < v.toNat ∨ ∃ i : Fin 64, i.val = v.toNat ∧ s.table.get i = none) :
    releaseAct s [v] = (s, Reply.plain .badIndex (codeDetail v)) := by
  rcases toIndex_noEntry h with hv | ⟨i, hi, he⟩
  · simp [releaseAct, hv]
  · simp [releaseAct, hi, he]

/-- RELEASE on a valid entry that is not BARRED (R22). -/
theorem releaseAct_notBarred {s : State} {v : Byte} {i : Fin 64} {e : Entry} (hi : i.val = v.toNat)
    (he : s.table.get i = some e) (hb : e.status ≠ .barred) : releaseAct s [v] = (s, Reply.ok []) := by
  simp [releaseAct, toIndex_some hi, he, hb]

/-- RELEASE on a BARRED entry: RELEASED carries the detail COMMAND (R22, R195). -/
theorem releaseAct_barred {s : State} {v : Byte} {i : Fin 64} {e : Entry} (hi : i.val = v.toNat)
    (he : s.table.get i = some e) (hb : e.status = .barred) :
    releaseAct s [v] =
      ({ s with table := s.table.set i.val (some { e with status := .enabled, strikes := 0 }) }.posting
        [s.eventNow .released (some i) (some e.config.outer) 2], Reply.ok []) := by
  simp only [releaseAct, List.getD_cons_zero, toIndex_some hi, he, hb, if_true, State.post_eq]
  rfl

/-- CLEAR_STATS on no valid entry (R182). -/
theorem clearStatsAct_badIndex {s : State} {v : Byte} (hall : v ≠ 0xFF)
    (h : 63 < v.toNat ∨ ∃ i : Fin 64, i.val = v.toNat ∧ s.table.get i = none) :
    clearStatsAct s [v] = (s, Reply.plain .badIndex (codeDetail v)) := by
  rcases toIndex_noEntry h with hv | ⟨i, hi, he⟩
  · simp only [clearStatsAct, List.getD_cons_zero, if_neg hall, hv]
  · simp only [clearStatsAct, List.getD_cons_zero, if_neg hall, hi, he]

/-- CLEAR_STATS on one valid entry (R22). -/
theorem clearStatsAct_valid {s : State} {v : Byte} {i : Fin 64} {e : Entry} (hi : i.val = v.toNat)
    (he : s.table.get i = some e) :
    clearStatsAct s [v] = ({ s with table := s.table.set i.val (some e.clearStats) }, Reply.ok []) := by
  simp only [clearStatsAct, List.getD_cons_zero, if_neg (index_ne_all hi), toIndex_some hi, he, State.setEntry]

/-- Settles O55: one case of each act for each kind of index; for FFh the table is read at every index by
`Table.get_mapEntries`. -/
theorem releaseAndClearStats : Obligations.ReleaseAndClearStats := by
  intro s v cleared badIndex
  constructor
  · intro h
    refine ⟨fun bad => ?badIndex, fun i e hi he => ⟨fun hb => ?notBarred, fun hb => ?barred⟩⟩
    case badIndex => exact h.outcome rfl (releaseAct_badIndex bad) h.works
    case notBarred => exact h.outcome rfl (releaseAct_notBarred hi he hb) h.works
    case barred => exact h.outcome rfl (releaseAct_barred hi he hb) h.works
  · intro h
    refine ⟨?all, fun hall bad => ?badIndex, fun i e hi he => ?valid⟩
    case all =>
      rintro rfl
      exact ⟨s.table.mapEntries Entry.clearStats, Table.get_mapEntries s.table Entry.clearStats,
        h.outcome (r := Reply.ok []) rfl rfl h.works⟩
    case badIndex => exact h.outcome rfl (clearStatsAct_badIndex hall bad) h.works
    case valid => exact h.outcome rfl (clearStatsAct_valid hi he) h.works

end Sys2Proof.Machine
end

section
/-! SUPPORT. From the commands to the step, and what the acts of the Management Engine can do: one lemma per act, from
which each invariant is read off. -/

namespace Sys2Proof.Machine

/-! ### From the commands to the step -/

/-- The command c answers a next state, and keeps this property of the state. -/
def Keeps (P : State → Prop) (c : Instr) : Prop := ∀ s, P s → ∃ t, exec c s = .next t ∧ P t

/-- What every command keeps, and the queue of commands plays no part in, every step keeps: the step is the command at
the front of the queue, or idles (log 17). -/
theorem step_keeps {P : State → Prop} (queue : ∀ s l, P s → P { s with pending := l }) (each : ∀ c, Keeps P c)
    {s t : State} (h : P s) (hst : step s = .next t) : P t := by
  unfold step at hst
  split at hst
  · cases hst
    exact h
  · next c rest _ =>
    obtain ⟨u, hu, kept⟩ := each c { s with pending := rest } (queue s rest h)
    rw [hu] at hst
    cases hst
    exact kept

/-- An act taken where its occasion holds keeps what it keeps on that occasion. -/
theorem keeps_ite {P : State → Prop} {s u : State} {b : Prop} [Decidable b] (h : P s) (act : b → P u) :
    P (if b then u else s) := by
  split
  · next hb => exact act hb
  · exact h

/-- CHARACTER_TIME takes the steps owed, then one character time passes as the device state has it (R150, R155). -/
theorem exec_characterTime_cases (s : State) : ∃ t, exec .characterTime s = .next t ∧
    (t = State.settleOwed s.owed.length s ∨ t = (State.settleOwed s.owed.length s).passInitTime ∨
      (State.settleOwed s.owed.length s).works = true ∧ t = (State.settleOwed s.owed.length s).passTime) := by
  show ∃ t, execCharacterTime s = .next t ∧ _
  unfold execCharacterTime State.works
  generalize State.settleOwed s.owed.length s = u
  simp only
  cases u.device with
  | reset => exact ⟨_, rfl, .inl rfl⟩
  | init => exact ⟨_, rfl, .inr (.inl rfl)⟩
  | standby | run | drain => exact ⟨_, rfl, .inr (.inr ⟨rfl, rfl⟩)⟩

/-- TAKE makes the take of R66 where its conditions and a free place are found, and changes nothing elsewhere. -/
theorem exec_take_cases (s : State) : ∃ t, exec .take s = .next t ∧
    (t = s ∨ t = s.takeHead ∧ (s.device = .run ∨ s.device = .standby) ∧ s.engagement = none ∧ s.up.total < 8) := by
  refine ⟨_, rfl, ?_⟩
  split
  · next asked =>
    simp only [State.exchangeAsks, Bool.and_eq_true, Bool.or_eq_true, decide_eq_true_eq, Option.isNone_iff_eq_none]
      at asked
    obtain ⟨⟨⟨⟨⟨device, _⟩, idle⟩, _⟩, _⟩, room⟩ := asked
    exact .inr ⟨rfl, device, idle, room⟩
  · exact .inl rfl

/-! ### READY -/

/-- In READY the Management Engine holds its reservation (R169). -/
theorem State.managementReady_held {s : State} (h : s.managementReady = true) : s.up.managementHeld = true := by
  simp only [State.managementReady, Bool.and_eq_true] at h
  exact h.1.2

/-- BAD_COMMAND changes nothing, or answers a request in READY (R172). -/
theorem exec_badCommand_cases (s : State) : ∃ t, exec .badCommand s = .next t ∧
    (t = s ∨ s.managementReady = true ∧ ∃ code r, t = s.reply code r) := by
  refine ⟨_, rfl, ?_⟩
  split
  · next ready =>
    split
    · exact .inl rfl
    · exact .inr ⟨ready, _, _, rfl⟩
    · split
      · exact .inr ⟨ready, _, _, rfl⟩
      · exact .inl rfl
  · exact .inl rfl

/-! ### The acts of the Management Engine -/

/-- SET_STATE leaves the device state, or brings what the two rows of R157 give. -/
theorem setStateAct_cases (s : State) (args : List Byte) :
    (setStateAct s args).1 = s ∨ (setStateAct s args).1 = { s with device := s.device.toRun } ∨
      (setStateAct s args).1 = { s with device := s.device.toStandby s.engagement.isSome } := by
  unfold setStateAct
  split
  · exact .inr (.inr rfl)
  · split
    · exact .inr (.inl rfl)
    · exact .inl rfl

/-- WRITE_POLICY changes nothing, or in STANDBY applies a record that passed its checks (R164). -/
theorem writePolicyAct_cases (s : State) (args : List Byte) :
    (writePolicyAct s args).1 = s ∨ ∃ p, s.device = .standby ∧ firstFailure (policyChecks s.table p) = none ∧
      (writePolicyAct s args).1 = s.applyPolicy p := by
  unfold writePolicyAct
  split
  · next standby =>
    split
    · exact .inl rfl
    · next p _ =>
      split
      · exact .inl rfl
      · next passed => exact .inr ⟨p, standby, passed, rfl⟩
  · exact .inl rfl

/-- WRITE_ENTRY changes nothing, or writes a configuration that passed its checks (R14). -/
theorem writeEntryAct_cases (s : State) (args : List Byte) :
    (writeEntryAct s args).1 = s ∨ ∃ index i c, toIndex index = some i ∧
      firstFailure (entryChecks s.table s.policy.gateAddress index c) = none ∧
      (writeEntryAct s args).1 = (s.writeEntry i c.stored).1 := by
  unfold writeEntryAct
  split
  · exact .inl rfl
  · next index rest =>
    split
    · exact .inl rfl
    · next c _ =>
      split
      · exact .inl rfl
      · exact .inl rfl
      · next i passed found => exact .inr ⟨index, i, c, found, passed, rfl⟩

/-- A held update changes the table alone (R19). -/
theorem State.holdUpdate_table (s : State) (i : Fin 64) (u : PendingUpdate) :
    ∃ t, s.holdUpdate i u = { s with table := t } := by
  unfold State.holdUpdate State.modifyEntry
  split <;> exact ⟨_, rfl⟩

/-- A write that passed its checks changes the table alone (R16, R17, R19). -/
theorem State.writeEntry_table (s : State) (i : Fin 64) (c : Configuration) :
    ∃ t, (s.writeEntry i c).1 = { s with table := t } := by
  unfold State.writeEntry
  split
  · exact s.holdUpdate_table i _
  · exact ⟨_, rfl⟩

/-- CLEAR_ENTRY changes nothing, holds a DELETE on the engaged entry, or empties another entry (R18). -/
theorem clearEntryAct_cases (s : State) (args : List Byte) :
    (clearEntryAct s args).1 = s ∨ ∃ i,
      s.engagedIndex = some i ∧ (clearEntryAct s args).1 = s.holdUpdate i .delete ∨
      s.engagedIndex ≠ some i ∧ (clearEntryAct s args).1 = s.setEntry i none := by
  unfold clearEntryAct
  simp only
  split
  · exact .inl rfl
  · next i _ =>
    split
    · exact .inl rfl
    · split
      · next engaged => exact .inr ⟨i, .inl ⟨engaged, rfl⟩⟩
      · next other => exact .inr ⟨i, .inr ⟨other, rfl⟩⟩

/-- A read of entries moves the Table Pointer alone (R23). -/
theorem State.readFrom_pointer (s : State) (i : Fin 64) (n : Byte) :
    ∃ p, (s.readFrom i n).1 = { s with tablePointer := p } := by
  unfold State.readFrom
  split <;> exact ⟨_, rfl⟩

/-- READ_ENTRIES moves the Table Pointer alone (R23). -/
theorem readEntriesAct_pointer (s : State) (args : List Byte) :
    ∃ p, (readEntriesAct s args).1 = { s with tablePointer := p } := by
  unfold readEntriesAct
  simp only
  split
  · exact ⟨_, rfl⟩
  · exact s.readFrom_pointer _ _

/-- FIND_ENTRY changes nothing (R180). -/
theorem findEntryAct_same (s : State) (args : List Byte) : (findEntryAct s args).1 = s := by
  unfold findEntryAct
  simp only
  split <;> rfl

/-- RELEASE changes nothing, or makes a BARRED entry ENABLED and posts RELEASED (R22). -/
theorem releaseAct_cases (s : State) (args : List Byte) :
    (releaseAct s args).1 = s ∨ ∃ i e, s.table.get i = some e ∧ e.status = .barred ∧
      (releaseAct s args).1 = (s.setEntry i (some { e with status := .enabled, strikes := 0 })).post .released (some i)
        (some e.config.outer) releasedByCommand := by
  unfold releaseAct
  simp only
  split
  · exact .inl rfl
  · next i _ =>
    split
    · exact .inl rfl
    · next e he =>
      split
      · next barred => exact .inr ⟨i, e, he, barred, rfl⟩
      · exact .inl rfl

/-- CLEAR_STATS changes nothing, or clears the statistics of every valid entry or of one (R22). -/
theorem clearStatsAct_cases (s : State) (args : List Byte) :
    (clearStatsAct s args).1 = s ∨ (clearStatsAct s args).1 = { s with table := s.table.mapEntries Entry.clearStats } ∨
      ∃ i e, s.table.get i = some e ∧ (clearStatsAct s args).1 = s.setEntry i (some e.clearStats) := by
  unfold clearStatsAct
  simp only
  split
  · exact .inr (.inl rfl)
  · split
    · exact .inl rfl
    · next i _ =>
      split
      · exact .inl rfl
      · next e he => exact .inr (.inr ⟨i, e, he, rfl⟩)

/-- TAKE_EVENTS changes nothing, or lets the oldest records leave the Event Queue and sets the lost count to 0
(R146). -/
theorem takeEventsAct_cases (s : State) (args : List Byte) :
    (takeEventsAct s args).1 = s ∨ ∃ n,
      (takeEventsAct s args).1 = { s with events := { records := s.events.records.drop n, lost := 0 } } := by
  unfold takeEventsAct
  simp only
  split
  · exact .inr ⟨_, rfl⟩
  · exact .inl rfl

end Sys2Proof.Machine
end

section
/-! SUPPORT. Every command, and so every step, keeps the bounds of the queues and the accounts of the reservations (R64,
R131, R144, R145). -/

namespace Sys2Proof.Machine

/-- One management command keeps the accounts where its act does and leaves the Management Engine's reservation. -/
theorem Accounts.command {s : State} (h : Accounts s) (code : Byte) (len : Nat)
    {act : State → List Byte → State × Reply} (kept : ∀ args, Accounts (act s args).1)
    (held : ∀ args, (act s args).1.up = s.up) : Accounts (s.carryOut code len act) :=
  h.carryOut code len act fun args _ => ⟨kept args, by rw [held]⟩

/-- The accounts say nothing of the table. -/
theorem Accounts.withTable {s : State} (h : Accounts s) (t : Table) : Accounts { s with table := t } :=
  h.congr rfl rfl rfl rfl rfl

/-- WRITE_POLICY keeps the accounts and the Up Queue. -/
theorem Accounts.writePolicyAct {s : State} (h : Accounts s) (args : List Byte) :
    Accounts (writePolicyAct s args).1 ∧ (Machine.writePolicyAct s args).1.up = s.up := by
  rcases writePolicyAct_cases s args with same | ⟨p, standby, _, written⟩
  · rw [same]
    exact ⟨h, rfl⟩
  · rw [written]
    exact h.applyPolicy p standby

/-- WRITE_ENTRY keeps the accounts and the Up Queue. -/
theorem Accounts.writeEntryAct {s : State} (h : Accounts s) (args : List Byte) :
    Accounts (writeEntryAct s args).1 ∧ (Machine.writeEntryAct s args).1.up = s.up := by
  rcases writeEntryAct_cases s args with same | ⟨_, i, c, _, _, written⟩
  · rw [same]
    exact ⟨h, rfl⟩
  · obtain ⟨t, ht⟩ := s.writeEntry_table i c.stored
    rw [written, ht]
    exact ⟨h.withTable t, rfl⟩

/-- CLEAR_ENTRY keeps the accounts and the Up Queue. -/
theorem Accounts.clearEntryAct {s : State} (h : Accounts s) (args : List Byte) :
    Accounts (clearEntryAct s args).1 ∧ (Machine.clearEntryAct s args).1.up = s.up := by
  rcases clearEntryAct_cases s args with same | ⟨i, ⟨_, held⟩ | ⟨_, cleared⟩⟩
  · rw [same]
    exact ⟨h, rfl⟩
  · obtain ⟨t, ht⟩ := s.holdUpdate_table i .delete
    rw [held, ht]
    exact ⟨h.withTable t, rfl⟩
  · rw [cleared]
    exact ⟨h.withTable _, rfl⟩

/-- RELEASE keeps the accounts and the Up Queue. -/
theorem Accounts.releaseAct {s : State} (h : Accounts s) (args : List Byte) :
    Accounts (releaseAct s args).1 ∧ (Machine.releaseAct s args).1.up = s.up := by
  rcases releaseAct_cases s args with same | ⟨i, e, _, _, released⟩
  · rw [same]
    exact ⟨h, rfl⟩
  · rw [released]
    exact ⟨Accounts.post (h.withTable _) _ _ _ _, rfl⟩

/-- CLEAR_STATS keeps the accounts and the Up Queue. -/
theorem Accounts.clearStatsAct {s : State} (h : Accounts s) (args : List Byte) :
    Accounts (clearStatsAct s args).1 ∧ (Machine.clearStatsAct s args).1.up = s.up := by
  rcases clearStatsAct_cases s args with same | all | ⟨i, e, _, one⟩
  · rw [same]
    exact ⟨h, rfl⟩
  · rw [all]
    exact ⟨h.withTable _, rfl⟩
  · rw [one]
    exact ⟨h.withTable _, rfl⟩

/-- TAKE_EVENTS keeps the accounts, for the Event Queue gets shorter and its lost count is 0 (R146). -/
theorem Accounts.takeEventsAct {s : State} (h : Accounts s) (args : List Byte) :
    Accounts (takeEventsAct s args).1 ∧ (Machine.takeEventsAct s args).1.up = s.up := by
  rcases takeEventsAct_cases s args with same | ⟨n, taken⟩
  · rw [same]
    exact ⟨h, rfl⟩
  · rw [taken]
    have shorter : (s.events.records.drop n).length ≤ 32 := by
      have := h.events
      rw [List.length_drop]
      omega
    exact ⟨{ h with events := shorter, lost := fun above => absurd rfl above }, rfl⟩

/-- SET_STATE keeps the accounts and the Up Queue. -/
theorem Accounts.setStateAct {s : State} (h : Accounts s) (args : List Byte) :
    Accounts (setStateAct s args).1 ∧ (Machine.setStateAct s args).1.up = s.up := by
  have device (d : DeviceState) : Accounts { s with device := d } := h.congr rfl rfl rfl rfl rfl
  rcases setStateAct_cases s args with same | run | standby
  · rw [same]
    exact ⟨h, rfl⟩
  · rw [run]
    exact ⟨device _, rfl⟩
  · rw [standby]
    exact ⟨device _, rfl⟩

/-- Every command keeps the accounts. -/
theorem accounts_kept (c : Instr) : Keeps Accounts c := by
  intro s h
  have pointer (p : Fin 64) : Accounts { s with tablePointer := p } := h.congr rfl rfl rfl rfl rfl
  cases c with
  | resetAsserted => exact ⟨_, rfl, Accounts.hardReset⟩
  | resetReleased => exact ⟨_, rfl, keeps_ite h fun _ => h.congr rfl rfl rfl rfl rfl⟩
  | initialisationCompletes => exact ⟨_, rfl, keeps_ite h fun _ => h.initialised⟩
  | uplinkFrameEnd v => exact ⟨_, rfl, keeps_ite h fun _ => h.takeUplink _⟩
  | fragmentSilence p =>
    cases p with
    | uplink => exact ⟨_, rfl, h.takeUplinkFragment⟩
    | segment => exact ⟨_, rfl, h.takeSegmentFragment⟩
  | headArrival v => exact ⟨_, rfl, keeps_ite h fun _ => h.takeSegment _⟩
  | segmentFrameEnd v => exact ⟨_, rfl, keeps_ite h fun _ => h.takeSegment _⟩
  | jabber => exact ⟨_, rfl, h.takeJabber⟩
  | lineQuiet => exact ⟨_, rfl, h.takeQuiet⟩
  | transmissionComplete => exact ⟨_, rfl, keeps_ite h fun _ => h.completeTransmission⟩
  | echoFault heard =>
    cases heard with
    | none => exact ⟨_, rfl, h.takeMissingEcho⟩
    | some c => exact ⟨_, rfl, keeps_ite h fun _ => h.hearSegment.compareEcho c⟩
  | abortEnd => exact ⟨_, rfl, h.takeAbortEnd⟩
  | deadlineExpiry => exact ⟨_, rfl, h.takeDeadline⟩
  | tokenExpiry => exact ⟨_, rfl, h.takeToken⟩
  | uplinkTransmissionComplete => exact ⟨_, rfl, keeps_ite h fun _ => h.completeUplink⟩
  | take =>
    obtain ⟨t, ht, rfl | ⟨rfl, _, idle, room⟩⟩ := exec_take_cases s
    · exact ⟨_, ht, h⟩
    · exact ⟨_, ht, h.takeHead idle room⟩
  | identify => exact ⟨_, rfl, h.same _ _ _ fun _ => rfl⟩
  | getState => exact ⟨_, rfl, h.same _ _ _ fun _ => rfl⟩
  | setState => exact ⟨_, rfl, h.command _ _ (fun a => (h.setStateAct a).1) fun a => (h.setStateAct a).2⟩
  | readPolicy => exact ⟨_, rfl, h.same _ _ _ fun _ => rfl⟩
  | writePolicy => exact ⟨_, rfl, h.command _ _ (fun a => (h.writePolicyAct a).1) fun a => (h.writePolicyAct a).2⟩
  | writeEntry => exact ⟨_, rfl, h.command _ _ (fun a => (h.writeEntryAct a).1) fun a => (h.writeEntryAct a).2⟩
  | clearEntry => exact ⟨_, rfl, h.command _ _ (fun a => (h.clearEntryAct a).1) fun a => (h.clearEntryAct a).2⟩
  | readEntries =>
    refine ⟨_, rfl, h.command _ _ (fun a => ?_) fun a => ?_⟩ <;>
      obtain ⟨p, hp⟩ := readEntriesAct_pointer s a <;> rw [hp]
    exact pointer p
  | readNext =>
    refine ⟨_, rfl, h.command _ _ (fun a => ?_) fun a => ?_⟩ <;>
      obtain ⟨p, hp⟩ := s.readFrom_pointer s.tablePointer (a.getD 0 0) <;> rw [hp]
    exact pointer p
  | findEntry => exact ⟨_, rfl, h.same _ _ _ (findEntryAct_same s)⟩
  | release => exact ⟨_, rfl, h.command _ _ (fun a => (h.releaseAct a).1) fun a => (h.releaseAct a).2⟩
  | clearStats => exact ⟨_, rfl, h.command _ _ (fun a => (h.clearStatsAct a).1) fun a => (h.clearStatsAct a).2⟩
  | takeEvents => exact ⟨_, rfl, h.command _ _ (fun a => (h.takeEventsAct a).1) fun a => (h.takeEventsAct a).2⟩
  | readTime => exact ⟨_, rfl, h.same _ _ _ fun _ => rfl⟩
  | setTime => exact ⟨_, rfl, h.command _ _ (fun _ => h.congr rfl rfl rfl rfl rfl) fun _ => rfl⟩
  | abandon =>
    refine ⟨_, rfl, h.carryOut _ _ _ fun _ ready => ⟨h.abandonEngagement, ?_⟩⟩
    have held := State.managementReady_held ready
    rw [held]
    exact abandon_mheld s held
  | softReset => exact ⟨_, rfl, h.same _ _ _ fun _ => rfl⟩
  | badCommand =>
    obtain ⟨t, ht, rfl | ⟨ready, code, r, rfl⟩⟩ := exec_badCommand_cases s
    · exact ⟨_, ht, h⟩
    · exact ⟨_, ht, h.reply code r (State.managementReady_held ready)⟩
  | characterTaken p w =>
    cases w with
    | startBit =>
      refine ⟨_, rfl, keeps_ite h fun _ => ?_⟩
      cases p <;> exact h.congr rfl rfl rfl rfl rfl
    | character c =>
      cases p with
      | uplink => exact ⟨_, rfl, h.takeUplink c⟩
      | segment => exact ⟨_, rfl, h.takeSegment c⟩
  | characterTime =>
    have settled := h.settleOwed s.owed.length
    obtain ⟨t, ht, rfl | rfl | ⟨_, rfl⟩⟩ := exec_characterTime_cases s
    · exact ⟨_, ht, settled⟩
    · exact ⟨_, ht, settled.congr rfl rfl rfl rfl rfl⟩
    · exact ⟨_, ht, settled.congr rfl rfl rfl rfl rfl⟩

/-- Settles O4: every command keeps the accounts, and they do not speak of the queue of commands. -/
theorem stepKeepsAccounts : Obligations.StepKeepsAccounts := fun _ _ h =>
  step_keeps (fun _ _ k => k.congr rfl rfl rfl rfl rfl) accounts_kept h

end Sys2Proof.Machine
end

section
/-! SUPPORT. Every command, and so every step, keeps the device state, the Engagement and the two transmitters in
agreement (R42, R52, R140, R157, R158). -/

namespace Sys2Proof.Machine

/-- A device state that the ports work in agrees with the Engagement: an open one finds RUN or DRAIN, and DRAIN finds
one that is open (R157, R158). -/
theorem Lines.withDevice {s : State} (h : Lines s) {d : DeviceState} (hw : d.works = true)
    (engaged : s.engagement.isSome = true → d = .run ∨ d = .drain)
    (draining : d = .drain → s.engagement.isSome = true) :
    Lines { s with device := d } := by
  refine Lines.working hw (fun opened => ?_) draining h.frame h.head
  simpa [State.maySend] using engaged opened

/-- SET_STATE keeps the agreement: STANDBY with an engagement open is DRAIN (R157). -/
theorem Lines.setStateAct {s : State} (h : Lines s) (hw : s.works = true) (args : List Byte) :
    Lines (setStateAct s args).1 ∧ (Machine.setStateAct s args).1.works = true := by
  have engaged : s.engagement.isSome = true → s.device = .run ∨ s.device = .drain := fun opened => by
    simpa [State.maySend] using h.engaged opened
  have works : s.device.works = true := hw
  rcases setStateAct_cases s args with same | run | standby
  · rw [same]
    exact ⟨h, hw⟩
  · rw [run, DeviceState.toRun_of_works works]
    exact ⟨h.withDevice rfl (fun _ => .inl rfl) nofun, rfl⟩
  · rw [standby]
    have draining := h.draining
    cases hd : s.device with
    | reset | init => simp [hd, DeviceState.works] at works
    | standby =>
      have idle : s.engagement.isSome ≠ true := fun opened => by simpa [hd] using engaged opened
      exact ⟨h.withDevice rfl (fun opened => absurd opened idle) nofun, rfl⟩
    | run =>
      cases opened : s.engagement.isSome with
      | true => exact ⟨h.withDevice rfl (fun _ => .inr rfl) fun _ => opened, rfl⟩
      | false => exact ⟨h.withDevice rfl (fun other => by simp [opened] at other) nofun, rfl⟩
    | drain => exact ⟨h.withDevice rfl (fun _ => .inr rfl) fun _ => draining hd, rfl⟩

/-- WRITE_POLICY keeps the agreement. -/
theorem Lines.writePolicyAct {s : State} (h : Lines s) (hw : s.works = true) (args : List Byte) :
    Lines (writePolicyAct s args).1 ∧ (Machine.writePolicyAct s args).1.works = true := by
  rcases writePolicyAct_cases s args with same | ⟨p, standby, _, written⟩
  · rw [same]
    exact ⟨h, hw⟩
  · rw [written]
    exact h.applyPolicy p standby

/-- WRITE_ENTRY keeps the agreement. -/
theorem Lines.writeEntryAct {s : State} (h : Lines s) (hw : s.works = true) (args : List Byte) :
    Lines (writeEntryAct s args).1 ∧ (Machine.writeEntryAct s args).1.works = true := by
  rcases writeEntryAct_cases s args with same | ⟨_, i, c, _, _, written⟩
  · rw [same]
    exact ⟨h, hw⟩
  · obtain ⟨t, ht⟩ := s.writeEntry_table i c.stored
    rw [written, ht]
    exact h.keepFields hw _ rfl rfl rfl rfl rfl

/-- CLEAR_ENTRY keeps the agreement. -/
theorem Lines.clearEntryAct {s : State} (h : Lines s) (hw : s.works = true) (args : List Byte) :
    Lines (clearEntryAct s args).1 ∧ (Machine.clearEntryAct s args).1.works = true := by
  rcases clearEntryAct_cases s args with same | ⟨i, ⟨_, held⟩ | ⟨_, cleared⟩⟩
  · rw [same]
    exact ⟨h, hw⟩
  · obtain ⟨t, ht⟩ := s.holdUpdate_table i .delete
    rw [held, ht]
    exact h.keepFields hw _ rfl rfl rfl rfl rfl
  · rw [cleared]
    exact h.keepFields hw _ rfl rfl rfl rfl rfl

/-- RELEASE keeps the agreement. -/
theorem Lines.releaseAct {s : State} (h : Lines s) (hw : s.works = true) (args : List Byte) :
    Lines (releaseAct s args).1 ∧ (Machine.releaseAct s args).1.works = true := by
  rcases releaseAct_cases s args with same | ⟨i, e, _, _, released⟩
  · rw [same]
    exact ⟨h, hw⟩
  · rw [released]
    exact h.keepFields hw _ rfl rfl rfl rfl rfl

/-- CLEAR_STATS keeps the agreement. -/
theorem Lines.clearStatsAct {s : State} (h : Lines s) (hw : s.works = true) (args : List Byte) :
    Lines (clearStatsAct s args).1 ∧ (Machine.clearStatsAct s args).1.works = true := by
  rcases clearStatsAct_cases s args with same | all | ⟨i, e, _, one⟩
  · rw [same]
    exact ⟨h, hw⟩
  · rw [all]
    exact h.keepFields hw _ rfl rfl rfl rfl rfl
  · rw [one]
    exact h.keepFields hw _ rfl rfl rfl rfl rfl

/-- TAKE_EVENTS keeps the agreement. -/
theorem Lines.takeEventsAct {s : State} (h : Lines s) (hw : s.works = true) (args : List Byte) :
    Lines (takeEventsAct s args).1 ∧ (Machine.takeEventsAct s args).1.works = true := by
  rcases takeEventsAct_cases s args with same | ⟨n, taken⟩
  · rw [same]
    exact ⟨h, hw⟩
  · rw [taken]
    exact h.keepFields hw _ rfl rfl rfl rfl rfl

/-- A read of entries keeps the agreement. -/
theorem Lines.pointer {s t : State} (h : Lines s) (hw : s.works = true)
    (moved : ∃ p, t = { s with tablePointer := p }) : Lines t ∧ t.works = true := by
  obtain ⟨p, rfl⟩ := moved
  exact h.keepFields hw _ rfl rfl rfl rfl rfl

/-- One management command keeps the agreement where its act does, in a state where the ports work. -/
theorem Lines.command {s : State} (h : Lines s) (code : Byte) (len : Nat) {act : State → List Byte → State × Reply}
    (kept : s.works = true → ∀ args, Lines (act s args).1 ∧ (act s args).1.works = true) :
    Lines (s.carryOut code len act) :=
  h.carryOut code len act fun args ready => kept (ready_works ready) args

/-- A frame on the line stays one, and an abort procedure holds what it held, as a character time passes (R53, R56). -/
theorem SegmentTransmitter.tick_holdsFrame (t : SegmentTransmitter) : t.tick.1.holdsFrame = t.holdsFrame := by
  cases t with
  | idle | gapWait | onLine => rfl
  | aborting left held =>
    unfold SegmentTransmitter.tick
    simp only
    split <;> rfl

/-- The uplink transmitter goes on with the frame it sends as a character time passes (log 10). -/
theorem sendsHead_tick {t : UplinkTransmitter} {frames : List UpFrame} (h : sendsHead t frames) (n : Nat) :
    sendsHead (t.tick n) frames := by
  cases t with
  | idle => exact h
  | sending wire position => cases frames <;> exact h

/-- One character time keeps the agreement (R53, R56). -/
theorem Lines.passTime {s : State} (h : Lines s) (hw : s.works = true) : Lines s.passTime :=
  Lines.working hw h.engaged h.draining ((SegmentTransmitter.tick_holdsFrame _).trans h.frame) (sendsHead_tick h.head _)

/-- One character time in INIT keeps the agreement (R59, R150). -/
theorem Lines.passInitTime {s : State} (h : Lines s) : Lines s.passInitTime :=
  { engaged := h.engaged, draining := h.draining
    frame := (SegmentTransmitter.tick_holdsFrame _).trans h.frame, head := h.head
    quiescent := fun rest => { h.quiescent rest with } }

/-- The release of RESET keeps the agreement, for nothing is open, held or recorded in RESET and INIT (R155). -/
theorem Lines.release {s : State} (h : Lines s) (hd : s.device = .reset) : Lines { s with device := .init } := by
  have rest : s.works = false := by simp [State.works, hd, DeviceState.works]
  have quiet := h.quiescent rest
  refine { engaged := fun opened => ?_, draining := nofun, frame := h.frame, head := h.head,
           quiescent := fun _ => { quiet with } }
  have := State.maySend_works (h.engaged opened)
  rw [rest] at this
  cases this

/-- A start bit keeps the agreement, for the receivers alone hear it. -/
theorem Lines.startBit {s : State} (h : Lines s) (p : Port) : Lines (s.startBit p) := by
  refine keeps_ite h fun hw => ?_
  cases p with
  | uplink => exact State.uplink_lines h hw _
  | segment => exact (h.keepFields hw s.resumeRun.startSegment rfl rfl rfl rfl rfl).1

/-- Every command keeps the agreement. -/
theorem lines_kept (c : Instr) : Keeps Lines c := by
  intro s h
  cases c with
  | resetAsserted => exact ⟨_, rfl, Lines.hardReset⟩
  | resetReleased => exact ⟨_, rfl, keeps_ite h h.release⟩
  | initialisationCompletes => exact ⟨_, rfl, keeps_ite h h.initialised⟩
  | uplinkFrameEnd v => exact ⟨_, rfl, keeps_ite h fun _ => h.takeUplink _⟩
  | fragmentSilence p =>
    cases p with
    | uplink => exact ⟨_, rfl, h.takeUplinkFragment⟩
    | segment => exact ⟨_, rfl, h.takeSegmentFragment⟩
  | headArrival v => exact ⟨_, rfl, keeps_ite h fun _ => h.takeSegment _⟩
  | segmentFrameEnd v => exact ⟨_, rfl, keeps_ite h fun _ => h.takeSegment _⟩
  | jabber => exact ⟨_, rfl, h.takeJabber⟩
  | lineQuiet => exact ⟨_, rfl, h.takeQuiet⟩
  | transmissionComplete =>
    refine ⟨_, rfl, keeps_ite h fun due => ?_⟩
    rw [Bool.and_eq_true] at due
    exact h.complete due.1 _
  | echoFault heard =>
    cases heard with
    | none => exact ⟨_, rfl, h.takeMissingEcho⟩
    | some c =>
      refine ⟨_, rfl, keeps_ite h fun due => ?_⟩
      rw [Bool.and_eq_true] at due
      exact Lines.compareEcho (s := s.hearSegment) (State.segment_lines h due.1 _) due.1 c
  | abortEnd => exact ⟨_, rfl, h.takeAbortEnd⟩
  | deadlineExpiry => exact ⟨_, rfl, h.takeDeadline⟩
  | tokenExpiry => exact ⟨_, rfl, h.takeToken⟩
  | uplinkTransmissionComplete => exact ⟨_, rfl, keeps_ite h h.completeUplink⟩
  | take =>
    obtain ⟨t, ht, rfl | ⟨rfl, device, _, _⟩⟩ := exec_take_cases s
    · exact ⟨_, ht, h⟩
    · exact ⟨_, ht, h.takeHead device⟩
  | identify => exact ⟨_, rfl, h.readOnly _ _ _ fun _ => rfl⟩
  | getState => exact ⟨_, rfl, h.readOnly _ _ _ fun _ => rfl⟩
  | setState => exact ⟨_, rfl, h.command _ _ h.setStateAct⟩
  | readPolicy => exact ⟨_, rfl, h.readOnly _ _ _ fun _ => rfl⟩
  | writePolicy => exact ⟨_, rfl, h.command _ _ h.writePolicyAct⟩
  | writeEntry => exact ⟨_, rfl, h.command _ _ h.writeEntryAct⟩
  | clearEntry => exact ⟨_, rfl, h.command _ _ h.clearEntryAct⟩
  | readEntries => exact ⟨_, rfl, h.command _ _ fun hw a => h.pointer hw (readEntriesAct_pointer s a)⟩
  | readNext => exact ⟨_, rfl, h.command _ _ fun hw a => h.pointer hw (s.readFrom_pointer _ _)⟩
  | findEntry => exact ⟨_, rfl, h.readOnly _ _ _ (findEntryAct_same s)⟩
  | release => exact ⟨_, rfl, h.command _ _ h.releaseAct⟩
  | clearStats => exact ⟨_, rfl, h.command _ _ h.clearStatsAct⟩
  | takeEvents => exact ⟨_, rfl, h.command _ _ h.takeEventsAct⟩
  | readTime => exact ⟨_, rfl, h.readOnly _ _ _ fun _ => rfl⟩
  | setTime => exact ⟨_, rfl, h.command _ _ fun hw _ => h.keepFields hw _ rfl rfl rfl rfl rfl⟩
  | abandon => exact ⟨_, rfl, h.command _ _ fun hw _ => ⟨h.abandonEngagement, abandon_works hw⟩⟩
  | softReset => exact ⟨_, rfl, h.readOnly _ _ _ fun _ => rfl⟩
  | badCommand =>
    obtain ⟨t, ht, rfl | ⟨ready, code, r, rfl⟩⟩ := exec_badCommand_cases s
    · exact ⟨_, ht, h⟩
    · exact ⟨_, ht, h.reply (ready_works ready) code r⟩
  | characterTaken p w =>
    cases w with
    | startBit => exact ⟨_, rfl, h.startBit p⟩
    | character c =>
      cases p with
      | uplink => exact ⟨_, rfl, h.takeUplink c⟩
      | segment => exact ⟨_, rfl, h.takeSegment c⟩
  | characterTime =>
    have settled := h.settleOwed s.owed.length
    obtain ⟨t, ht, rfl | rfl | ⟨hw, rfl⟩⟩ := exec_characterTime_cases s
    · exact ⟨_, ht, settled⟩
    · exact ⟨_, ht, settled.passInitTime⟩
    · exact ⟨_, ht, settled.passTime hw⟩

/-- The agreement does not speak of the queue of commands. -/
theorem Lines.withPending {s : State} (h : Lines s) (l : List Instr) : Lines { s with pending := l } :=
  h.same rfl rfl rfl rfl rfl rfl rfl rfl rfl rfl

/-- Settles O5: every command keeps the agreement. -/
theorem stepKeepsLines : Obligations.StepKeepsLines := fun _ _ h =>
  step_keeps (fun _ l k => k.withPending l) lines_kept h

end Sys2Proof.Machine
end

section
/-! SUPPORT. Every command, and so every step, keeps the Policy Record, the Station Table and the counters of the
engaged entry in range (R4, R5, R7 to R10, R19, R88, R109, R163). -/

namespace Sys2Proof.Machine

/-- Outside RUN and DRAIN no engagement is open (R157, R158). -/
theorem Lines.idle {s : State} (h : Lines s) (hd : s.maySend = false) : s.engagement = none := by
  rw [← Option.not_isSome_iff_eq_none]
  intro opened
  have := h.engaged opened
  rw [hd] at this
  cases this

/-- WRITE_POLICY keeps the tables: it is carried out in STANDBY, where no engagement is open (R158, R164). -/
theorem Tables.writePolicyAct {s : State} (h : Tables s) (lines : Lines s) (args : List Byte) :
    Tables (writePolicyAct s args).1 := by
  rcases writePolicyAct_cases s args with same | ⟨p, standby, passed, written⟩
  · rw [same]
    exact h
  · rw [written]
    exact h.sound.applyPolicy (lines.idle (by simp [State.maySend, standby])) p passed

/-- WRITE_ENTRY keeps the tables: what passed its checks is sound (R14, R15). -/
theorem Tables.writeEntryAct {s : State} (h : Tables s) (args : List Byte) : Tables (writeEntryAct s args).1 := by
  rcases writeEntryAct_cases s args with same | ⟨index, i, c, found, passed, written⟩
  · rw [same]
    exact h
  · rw [written]
    exact h.writeEntry index i c found passed

/-- CLEAR_ENTRY keeps the tables: the engaged entry keeps its configuration (R18, R19). -/
theorem Tables.clearEntryAct {s : State} (h : Tables s) (args : List Byte) : Tables (clearEntryAct s args).1 := by
  rcases clearEntryAct_cases s args with same | ⟨i, ⟨engaged, held⟩ | ⟨other, cleared⟩⟩
  · rw [same]
    exact h
  · rw [held]
    exact h.holdUpdate i .delete engaged nofun
  · rw [cleared]
    exact h.clearEntry i other

/-- An entry that a command makes ENABLED keeps its configuration and its ranges (R7, R8, R22). -/
theorem Entry.Sound.released {e : Entry} {p : Policy} (h : e.Sound p) (barred : e.status = .barred)
    (threshold : 1 ≤ p.strikeThreshold.toNat) : ({ e with status := .enabled, strikes := 0 } : Entry).Sound p :=
  { h with
    disabled := iff_of_false nofun fun off => by
      have := h.disabled.mpr off
      rw [barred] at this
      cases this
    barred := nofun
    strikes := threshold }

/-- RELEASE keeps the tables. -/
theorem Tables.releaseAct {s : State} (h : Tables s) (args : List Byte) : Tables (releaseAct s args).1 := by
  rcases releaseAct_cases s args with same | ⟨i, e, he, barred, released⟩
  · rw [same]
    exact h
  · rw [released]
    have kept := h.setRuntime i e { e with status := .enabled, strikes := 0 } he
      ⟨rfl, rfl, fun sound => sound.released barred h.sound.policy.strikeThreshold.1⟩
    exact kept.post _ _ _ _

/-- CLEAR_STATS keeps the tables. -/
theorem Tables.clearStatsAct {s : State} (h : Tables s) (args : List Byte) : Tables (clearStatsAct s args).1 := by
  rcases clearStatsAct_cases s args with same | all | ⟨i, e, he, one⟩
  · rw [same]
    exact h
  · rw [all]
    exact h.clearStats
  · rw [one]
    exact h.setRuntime i e _ he ⟨rfl, rfl, fun sound => sound.of_fields rfl rfl rfl rfl rfl rfl⟩

/-- A management command keeps the tables where its act leaves every field they speak of. -/
theorem Tables.elsewhere {s : State} (h : Tables s) (code : Byte) (len : Nat) {act : State → List Byte → State × Reply}
    (fields : ∀ args, (act s args).1.policy = s.policy ∧ (act s args).1.table = s.table ∧
      (act s args).1.engagement = s.engagement ∧ (act s args).1.token = s.token ∧ (act s args).1.watch = s.watch) :
    Tables (s.carryOut code len act) :=
  h.carryOut code len act fun args =>
    have ⟨policy, table, engagement, token, watch⟩ := fields args
    h.congr policy table engagement token watch

/-- The release of the gate from INIT keeps the tables: no engagement is open there (R156). -/
theorem Tables.initialised {s : State} (h : Tables s) (lines : Lines s) (hd : s.device = .init) :
    Tables s.initialised :=
  h.congr rfl rfl (lines.idle (by simp [State.maySend, hd])).symm rfl rfl

/-- Every command keeps the tables, in a state where the device state and the Engagement agree. -/
theorem tables_kept (c : Instr) {s : State} (lines : Lines s) (h : Tables s) : ∃ t, exec c s = .next t ∧ Tables t := by
  cases c with
  | resetAsserted => exact ⟨_, rfl, Tables.reset rfl rfl rfl⟩
  | resetReleased => exact ⟨_, rfl, keeps_ite h fun _ => h.congr rfl rfl rfl rfl rfl⟩
  | initialisationCompletes => exact ⟨_, rfl, keeps_ite h (h.initialised lines)⟩
  | uplinkFrameEnd v => exact ⟨_, rfl, keeps_ite h fun _ => h.takeUplink _⟩
  | fragmentSilence p =>
    cases p with
    | uplink => exact ⟨_, rfl, h.takeUplinkFragment⟩
    | segment => exact ⟨_, rfl, h.takeSegmentFragment⟩
  | headArrival v => exact ⟨_, rfl, keeps_ite h fun _ => h.takeSegment _⟩
  | segmentFrameEnd v => exact ⟨_, rfl, keeps_ite h fun _ => h.takeSegment _⟩
  | jabber => exact ⟨_, rfl, h.takeJabber⟩
  | lineQuiet => exact ⟨_, rfl, h.takeQuiet⟩
  | transmissionComplete => exact ⟨_, rfl, keeps_ite h fun _ => h.completeTransmission⟩
  | echoFault heard =>
    cases heard with
    | none => exact ⟨_, rfl, h.takeMissingEcho⟩
    | some c =>
      have heard : Tables s.hearSegment := h.congr rfl rfl rfl rfl rfl
      exact ⟨_, rfl, keeps_ite h fun _ => heard.compareEcho c⟩
  | abortEnd => exact ⟨_, rfl, h.takeAbortEnd⟩
  | deadlineExpiry => exact ⟨_, rfl, h.takeDeadline⟩
  | tokenExpiry => exact ⟨_, rfl, h.takeToken⟩
  | uplinkTransmissionComplete => exact ⟨_, rfl, keeps_ite h fun _ => h.completeUplink⟩
  | take =>
    obtain ⟨t, ht, rfl | ⟨rfl, _, idle, _⟩⟩ := exec_take_cases s
    · exact ⟨_, ht, h⟩
    · exact ⟨_, ht, h.takeHead idle⟩
  | identify => exact ⟨_, rfl, h.elsewhere _ _ fun _ => ⟨rfl, rfl, rfl, rfl, rfl⟩⟩
  | getState => exact ⟨_, rfl, h.elsewhere _ _ fun _ => ⟨rfl, rfl, rfl, rfl, rfl⟩⟩
  | setState =>
    refine ⟨_, rfl, h.elsewhere _ _ fun a => ?_⟩
    obtain same | run | standby := setStateAct_cases s a
    · rw [same]
      exact ⟨rfl, rfl, rfl, rfl, rfl⟩
    · rw [run]
      exact ⟨rfl, rfl, rfl, rfl, rfl⟩
    · rw [standby]
      exact ⟨rfl, rfl, rfl, rfl, rfl⟩
  | readPolicy => exact ⟨_, rfl, h.elsewhere _ _ fun _ => ⟨rfl, rfl, rfl, rfl, rfl⟩⟩
  | writePolicy => exact ⟨_, rfl, h.carryOut _ _ _ (h.writePolicyAct lines)⟩
  | writeEntry => exact ⟨_, rfl, h.carryOut _ _ _ h.writeEntryAct⟩
  | clearEntry => exact ⟨_, rfl, h.carryOut _ _ _ h.clearEntryAct⟩
  | readEntries =>
    refine ⟨_, rfl, h.elsewhere _ _ fun a => ?_⟩
    obtain ⟨p, hp⟩ := readEntriesAct_pointer s a
    rw [hp]
    exact ⟨rfl, rfl, rfl, rfl, rfl⟩
  | readNext =>
    refine ⟨_, rfl, h.elsewhere _ _ fun a => ?_⟩
    obtain ⟨p, hp⟩ := s.readFrom_pointer s.tablePointer (a.getD 0 0)
    rw [hp]
    exact ⟨rfl, rfl, rfl, rfl, rfl⟩
  | findEntry =>
    refine ⟨_, rfl, h.elsewhere _ _ fun a => ?_⟩
    rw [findEntryAct_same]
    exact ⟨rfl, rfl, rfl, rfl, rfl⟩
  | release => exact ⟨_, rfl, h.carryOut _ _ _ h.releaseAct⟩
  | clearStats => exact ⟨_, rfl, h.carryOut _ _ _ h.clearStatsAct⟩
  | takeEvents =>
    refine ⟨_, rfl, h.elsewhere _ _ fun a => ?_⟩
    obtain same | ⟨n, taken⟩ := takeEventsAct_cases s a
    · rw [same]
      exact ⟨rfl, rfl, rfl, rfl, rfl⟩
    · rw [taken]
      exact ⟨rfl, rfl, rfl, rfl, rfl⟩
  | readTime => exact ⟨_, rfl, h.elsewhere _ _ fun _ => ⟨rfl, rfl, rfl, rfl, rfl⟩⟩
  | setTime => exact ⟨_, rfl, h.elsewhere _ _ fun _ => ⟨rfl, rfl, rfl, rfl, rfl⟩⟩
  | abandon => exact ⟨_, rfl, h.carryOut _ _ _ fun _ => h.abandonEngagement⟩
  | softReset => exact ⟨_, rfl, h.elsewhere _ _ fun _ => ⟨rfl, rfl, rfl, rfl, rfl⟩⟩
  | badCommand =>
    obtain ⟨t, ht, rfl | ⟨_, code, r, rfl⟩⟩ := exec_badCommand_cases s
    · exact ⟨_, ht, h⟩
    · exact ⟨_, ht, h.reply code r⟩
  | characterTaken p w =>
    cases w with
    | startBit =>
      refine ⟨_, rfl, keeps_ite h fun _ => ?_⟩
      cases p <;> exact h.congr rfl rfl rfl rfl rfl
    | character c =>
      cases p with
      | uplink => exact ⟨_, rfl, h.takeUplink c⟩
      | segment => exact ⟨_, rfl, h.takeSegment c⟩
  | characterTime =>
    have settled := Tables.settleOwed s.owed.length h
    obtain ⟨t, ht, rfl | rfl | ⟨_, rfl⟩⟩ := exec_characterTime_cases s
    · exact ⟨_, ht, settled⟩
    · exact ⟨_, ht, settled.congr rfl rfl rfl rfl rfl⟩
    · exact ⟨_, ht, settled.passTime⟩

/-- Every command keeps the agreement and the tables together. -/
theorem lines_tables_kept (c : Instr) : Keeps (fun s => Lines s ∧ Tables s) c := by
  rintro s ⟨lines, tables⟩
  obtain ⟨t, ht, lines'⟩ := lines_kept c s lines
  obtain ⟨u, hu, tables'⟩ := tables_kept c lines tables
  rw [ht] at hu
  cases hu
  exact ⟨t, ht, lines', tables'⟩

/-- Settles O6: every command keeps the agreement and the tables. -/
theorem stepKeepsTables : Obligations.StepKeepsTables := by
  intro s t lines sound engaged hst
  have queue (s : State) (l : List Instr) (h : Lines s ∧ Tables s) :
      Lines { s with pending := l } ∧ Tables { s with pending := l } :=
    ⟨h.1.withPending l, h.2.congr rfl rfl rfl rfl rfl⟩
  obtain ⟨_, tables⟩ := step_keeps queue lines_tables_kept ⟨lines, sound, engaged⟩ hst
  exact ⟨tables.sound, tables.engaged⟩

end Sys2Proof.Machine
end

section
/-! SUPPORT. Every command answers a next state and leaves the queue of commands alone. -/

namespace Sys2Proof.Machine

/-- A management command leaves the queue of commands alone where its act does. -/
theorem State.carryOut_pending {s : State} {code : Byte} {len : Nat} {act : State → List Byte → State × Reply}
    (kept : ∀ args, (act s args).1.pending = s.pending) : (s.carryOut code len act).pending = s.pending := by
  unfold State.carryOut
  split
  · rfl
  · next args _ =>
    simp only
    split
    · exact kept args
    · rfl

/-- The steps owed leave the queue of commands alone as they are taken. -/
theorem State.settleOwed_pending (n : Nat) : ∀ s : State, (State.settleOwed n s).pending = s.pending := by
  induction n with
  | zero => exact fun _ => rfl
  | succ n ih =>
    intro s
    unfold State.settleOwed
    split
    · rfl
    · exact State.takeThreshold_pending _ _
    · simp only
      rw [ih, State.takeThreshold_pending]

/-- Every command leaves a queue of commands l alone. -/
theorem pending_kept (l : List Instr) (c : Instr) : Keeps (fun s => s.pending = l) c := by
  rintro s rfl
  cases c with
  | resetAsserted => exact ⟨_, rfl, rfl⟩
  | resetReleased | initialisationCompletes =>
    exact ⟨_, rfl, keeps_ite (P := fun t => t.pending = s.pending) rfl fun _ => rfl⟩
  | uplinkFrameEnd v => exact ⟨_, rfl, keeps_ite (P := fun t => t.pending = s.pending) rfl fun _ => by simp⟩
  | fragmentSilence p =>
    cases p with
    | uplink => exact ⟨_, rfl, s.takeUplinkFragment_pending⟩
    | segment => exact ⟨_, rfl, s.takeSegmentFragment_pending⟩
  | headArrival v | segmentFrameEnd v =>
    exact ⟨_, rfl, keeps_ite (P := fun t => t.pending = s.pending) rfl fun _ => State.takeSegment_pending _ _⟩
  | jabber => exact ⟨_, rfl, s.takeJabber_pending⟩
  | lineQuiet => exact ⟨_, rfl, s.takeQuiet_pending⟩
  | transmissionComplete =>
    exact ⟨_, rfl, keeps_ite (P := fun t => t.pending = s.pending) rfl fun _ => s.completeTransmission_pending⟩
  | echoFault heard =>
    cases heard with
    | none => exact ⟨_, rfl, s.takeMissingEcho_pending⟩
    | some c =>
      exact ⟨_, rfl, keeps_ite (P := fun t => t.pending = s.pending) rfl fun _ => State.compareEcho_pending _ _⟩
  | abortEnd => exact ⟨_, rfl, s.takeAbortEnd_pending⟩
  | deadlineExpiry => exact ⟨_, rfl, s.takeDeadline_pending⟩
  | tokenExpiry => exact ⟨_, rfl, s.takeToken_pending⟩
  | uplinkTransmissionComplete =>
    exact ⟨_, rfl, keeps_ite (P := fun t => t.pending = s.pending) rfl fun _ => s.completeUplink_pending⟩
  | take => exact ⟨_, rfl, keeps_ite (P := fun t => t.pending = s.pending) rfl fun _ => s.takeHead_pending⟩
  | identify | getState | readPolicy | readTime | softReset | setTime =>
    exact ⟨_, rfl, State.carryOut_pending fun _ => rfl⟩
  | setState =>
    refine ⟨_, rfl, State.carryOut_pending fun a => ?_⟩
    rcases setStateAct_cases s a with same | run | standby
    · rw [same]
    · rw [run]
    · rw [standby]
  | writePolicy =>
    refine ⟨_, rfl, State.carryOut_pending fun a => ?_⟩
    rcases writePolicyAct_cases s a with same | ⟨p, _, _, written⟩
    · rw [same]
    · rw [written, State.applyPolicy_pending]
  | writeEntry =>
    refine ⟨_, rfl, State.carryOut_pending fun a => ?_⟩
    rcases writeEntryAct_cases s a with same | ⟨_, i, c, _, _, written⟩
    · rw [same]
    · obtain ⟨t, ht⟩ := s.writeEntry_table i c.stored
      rw [written, ht]
  | clearEntry =>
    refine ⟨_, rfl, State.carryOut_pending fun a => ?_⟩
    rcases clearEntryAct_cases s a with same | ⟨i, ⟨_, held⟩ | ⟨_, cleared⟩⟩
    · rw [same]
    · rw [held, State.holdUpdate_pending]
    · rw [cleared, State.setEntry_pending]
  | readEntries =>
    refine ⟨_, rfl, State.carryOut_pending fun a => ?_⟩
    obtain ⟨p, hp⟩ := readEntriesAct_pointer s a
    rw [hp]
  | readNext =>
    refine ⟨_, rfl, State.carryOut_pending fun a => ?_⟩
    obtain ⟨p, hp⟩ := s.readFrom_pointer s.tablePointer (a.getD 0 0)
    rw [hp]
  | findEntry => exact ⟨_, rfl, State.carryOut_pending fun a => by rw [findEntryAct_same]⟩
  | release =>
    refine ⟨_, rfl, State.carryOut_pending fun a => ?_⟩
    rcases releaseAct_cases s a with same | ⟨i, e, _, _, released⟩
    · rw [same]
    · rw [released, State.post_pending, State.setEntry_pending]
  | clearStats =>
    refine ⟨_, rfl, State.carryOut_pending fun a => ?_⟩
    rcases clearStatsAct_cases s a with same | all | ⟨i, e, _, one⟩
    · rw [same]
    · rw [all]
    · rw [one, State.setEntry_pending]
  | takeEvents =>
    refine ⟨_, rfl, State.carryOut_pending fun a => ?_⟩
    rcases takeEventsAct_cases s a with same | ⟨n, taken⟩
    · rw [same]
    · rw [taken]
  | abandon => exact ⟨_, rfl, State.carryOut_pending fun _ => s.abandonEngagement_pending⟩
  | badCommand =>
    obtain ⟨t, ht, rfl | ⟨_, code, r, rfl⟩⟩ := exec_badCommand_cases s
    · exact ⟨_, ht, rfl⟩
    · exact ⟨_, ht, rfl⟩
  | characterTaken p w =>
    cases w with
    | startBit => exact ⟨_, rfl, s.startBit_pending p⟩
    | character c =>
      cases p with
      | uplink => exact ⟨_, rfl, s.takeUplink_pending c⟩
      | segment => exact ⟨_, rfl, s.takeSegment_pending c⟩
  | characterTime =>
    have settled := State.settleOwed_pending s.owed.length s
    obtain ⟨t, ht, rfl | rfl | ⟨_, rfl⟩⟩ := exec_characterTime_cases s
    · exact ⟨_, ht, settled⟩
    · exact ⟨_, ht, settled⟩
    · exact ⟨_, ht, settled⟩

/-- Settles O2: every command leaves the queue it finds alone. -/
theorem everyCommandAnswers : Obligations.EveryCommandAnswers := fun c s => pending_kept s.pending c s rfl

/-- Settles O1: the two branches of the step. -/
theorem stepRunsFrontCommand : Obligations.StepRunsFrontCommand := by
  refine ⟨fun _ _ _ => rfl, fun s empty => ?_⟩
  unfold step
  rw [empty]

end Sys2Proof.Machine
end

section
/-! SUPPORT. The occasion of each command: where it does not hold, the command leaves the state as it was (log 2). -/

namespace Sys2Proof.Machine

/-! ### The requests of the Management Engine -/

/-- A request is found for a command exactly where the Slot holds one in READY that names it (R169, R172). -/
theorem State.requestFor_iff {s : State} {code : Byte} {args : List Byte} :
    s.requestFor code = some args ↔ RequestReady s code args := by
  constructor
  · intro found
    unfold State.requestFor at found
    split at found
    · next ready =>
      split at found
      · next c rest slot =>
        split at found
        · next names =>
          cases found
          rw [names] at slot
          exact ⟨slot, State.managementReady_held ready, ready_works ready⟩
        · cases found
      · cases found
    · cases found
  · intro h
    simp [State.requestFor, State.managementReady, h.slot, h.place, h.works]

/-- Each of the seventeen commands carries out an act on the request that names it, of its length (R170, R172). -/
theorem exec_requestTable {c : Instr} {code : Byte} {len : Nat} (h : (c, code, len) ∈ requestTable) :
    ∃ act, ∀ s, exec c s = .next (s.carryOut code len act) := by
  simp only [requestTable, List.mem_cons, Prod.mk.injEq, List.not_mem_nil, or_false] at h
  rcases h with ⟨rfl, rfl, rfl⟩ | ⟨rfl, rfl, rfl⟩ | ⟨rfl, rfl, rfl⟩ | ⟨rfl, rfl, rfl⟩ | ⟨rfl, rfl, rfl⟩ |
    ⟨rfl, rfl, rfl⟩ | ⟨rfl, rfl, rfl⟩ | ⟨rfl, rfl, rfl⟩ | ⟨rfl, rfl, rfl⟩ | ⟨rfl, rfl, rfl⟩ | ⟨rfl, rfl, rfl⟩ |
    ⟨rfl, rfl, rfl⟩ | ⟨rfl, rfl, rfl⟩ | ⟨rfl, rfl, rfl⟩ | ⟨rfl, rfl, rfl⟩ | ⟨rfl, rfl, rfl⟩ | ⟨rfl, rfl, rfl⟩
  all_goals exact ⟨_, fun _ => rfl⟩

/-- A management command without a request in READY that names it does not occur (log 1, log 2). -/
theorem exec_request_idle {s : State} {c : Instr} {code : Byte} {len : Nat} (h : (c, code, len) ∈ requestTable)
    (none_ready : ∀ args, ¬ RequestReady s code args) : exec c s = .next s := by
  obtain ⟨act, carried⟩ := exec_requestTable h
  have missing : s.requestFor code = none :=
    Option.eq_none_iff_forall_ne_some.mpr fun args found => none_ready args (State.requestFor_iff.mp found)
  rw [carried, State.carryOut, missing]

/-- A request in READY is READY (R169). -/
theorem RequestReady.ready {s : State} {code : Byte} {args : List Byte} (h : RequestReady s code args) :
    s.managementReady = true := by
  simp [State.managementReady, h.slot, h.place, h.works]

/-- Settles O59: the answers of R172 before a command is carried out. -/
theorem malformedRequestsAnswered : Obligations.MalformedRequestsAnswered := by
  refine ⟨fun s code args h unknown => ?unknown, fun s slot place works => ?empty,
    fun s c code len args row h long => ?len⟩
  case unknown =>
    have names : namesNoCommand code = true := by simpa [namesNoCommand] using unknown
    show execBadCommand s = _
    rw [execBadCommand, if_pos h.ready, h.slot]
    simp only [names, if_true]
    exact congrArg _ (State.reply_eq s h.works code _)
  case empty =>
    have ready : s.managementReady = true := by simp [State.managementReady, slot, place, works]
    show execBadCommand s = _
    rw [execBadCommand, if_pos ready, slot]
    exact congrArg _ (State.reply_eq s works 0 _)
  case len =>
    obtain ⟨act, carried⟩ := exec_requestTable row
    rw [carried, State.carryOut_badLength h len act long]

/-! ### The commands of the two links -/

theorem exec_uplinkFrameEnd_idle {s : State} (h : s.uplinkAtEnd = false) (v : Byte) :
    exec (.uplinkFrameEnd v) s = .next s := by
  show execUplinkFrameEnd v s = _
  simp [execUplinkFrameEnd, h]

theorem exec_fragmentSilence_uplink_idle {s : State} (h : s.uplinkFragmentDue = false) :
    exec (.fragmentSilence .uplink) s = .next s := by
  show execFragmentSilence .uplink s = _
  simp [execFragmentSilence, State.takeUplinkFragment, h]

theorem exec_fragmentSilence_segment_idle {s : State} (h : s.segmentFragmentDue = false) :
    exec (.fragmentSilence .segment) s = .next s := by
  show execFragmentSilence .segment s = _
  simp [execFragmentSilence, State.takeSegmentFragment, h]

theorem exec_headArrival_idle {s : State} (h : s.segmentFrames = false) (v : Byte) :
    exec (.headArrival v) s = .next s := by
  show execHeadArrival v s = _
  simp [execHeadArrival, h]

theorem exec_segmentFrameEnd_idle {s : State} (h : s.segmentAtEnd = false) (v : Byte) :
    exec (.segmentFrameEnd v) s = .next s := by
  show execSegmentFrameEnd v s = _
  simp [execSegmentFrameEnd, h]

theorem exec_jabber_idle {s : State} (h : s.jabberDue = false) : exec .jabber s = .next s := by
  show execJabber s = _
  simp [execJabber, State.takeJabber, h]

theorem exec_lineQuiet_idle {s : State} (h : s.quietDue = false) : exec .lineQuiet s = .next s := by
  show execLineQuiet s = _
  simp [execLineQuiet, State.takeQuiet, h]

theorem exec_transmissionComplete_idle {s : State} (h : s.works = false ∨ s.transmitter.lastEchoDue = false) :
    exec .transmissionComplete s = .next s := by
  show execTransmissionComplete s = _
  rcases h with h | h <;> simp [execTransmissionComplete, h]

theorem exec_echoFault_missing_idle {s : State} (h : s.works = false ∨ s.transmitter.echoMissing = false) :
    exec (.echoFault none) s = .next s := by
  show execEchoFault none s = _
  rcases h with h | h <;> simp [execEchoFault, State.takeMissingEcho, h]

theorem exec_echoFault_wrong_idle {s : State} {c : LineChar} (h : s.works = false ∨ s.echoDiffers c = false) :
    exec (.echoFault (some c)) s = .next s := by
  show execEchoFault (some c) s = _
  rcases h with h | h <;> simp [execEchoFault, h]

theorem exec_abortEnd_idle {s : State} (h : s.transmitter.abortEnds = false) : exec .abortEnd s = .next s := by
  show execAbortEnd s = _
  simp [execAbortEnd, State.takeAbortEnd, h]

theorem exec_deadlineExpiry_idle {s : State} (h : s.deadlineDue = none) : exec .deadlineExpiry s = .next s := by
  show execDeadlineExpiry s = _
  simp [execDeadlineExpiry, State.takeDeadline, h]

theorem exec_tokenExpiry_idle {s : State} (h : s.tokenDue = none) : exec .tokenExpiry s = .next s := by
  show execTokenExpiry s = _
  simp [execTokenExpiry, State.takeToken, h]

/-- Where the ports do not work, no command of the two links has its occasion (R38, R59, R155). -/
theorem links_idle {s : State} (h : s.works = false) :
    s.uplinkAtEnd = false ∧ s.uplinkFragmentDue = false ∧ s.segmentFrames = false ∧ s.quietDue = false := by
  simp [State.uplinkAtEnd, State.uplinkFragmentDue, State.segmentFrames, State.quietDue, h]

/-- Where the segment receiver frames nothing, no command of its frames has its occasion (R26, R45). -/
theorem segment_idle {s : State} (h : s.segmentFrames = false) :
    s.segmentAtEnd = false ∧ s.segmentFragmentDue = false ∧ s.jabberDue = false := by
  simp [State.segmentAtEnd, State.segmentFragmentDue, State.jabberDue, h]

/-- The position of the second CHECK character, as the statement has it (R33, R34). -/
theorem OpenFrame.atSecondCheck_iff (f : OpenFrame) : f.atSecondCheck = true ↔
    f.damage = none ∧ ∃ len : Byte, f.kept[3]? = some len ∧ f.kept.length = len.toNat + 5 := by
  unfold OpenFrame.atSecondCheck
  cases f.damage <;> cases f.kept[3]? <;> simp

end Sys2Proof.Machine
end

section
/-! SUPPORT. The commands whose occasion does not hold, gathered (log 2, log 5, log 14). -/

namespace Sys2Proof.Machine

/-- BAD_COMMAND has no occasion without a request in READY, and none for a code that names a command (R172). -/
theorem exec_badCommand_idle {s : State}
    (h : s.slot = none ∨ s.up.managementHeld = false ∨ s.works = false ∨
      ∃ code args, s.slot = some (code :: args) ∧ 1 ≤ code.toNat ∧ code.toNat ≤ 17) :
    exec .badCommand s = .next s := by
  show execBadCommand s = _
  rcases h with slot | place | works | ⟨code, args, slot, low, high⟩
  · simp [execBadCommand, slot]
  · simp [execBadCommand, State.managementReady, place]
  · simp [execBadCommand, State.managementReady, works]
  · have named : namesNoCommand code = false := by
      have zero : code ≠ 0 := by
        rintro rfl
        simp at low
      simpa [namesNoCommand, high] using zero
    simp [execBadCommand, slot, named]

/-- A segment receiver that does not frame (R26, R45). -/
theorem State.segmentFrames_false {s : State}
    (h : s.works = false ∨ s.transmitter.holdsLine = true ∨ s.segment.state = .muted) : s.segmentFrames = false := by
  rcases h with h | h | h <;> simp [State.segmentFrames, h]

/-- ECHO_FAULT has no occasion in any form where the ports do not work or no frame is on the line (R54). -/
theorem exec_echoFault_idle {s : State}
    (h : s.works = false ∨ s.transmitter.heldEcho = none ∧ s.transmitter.echoMissing = false)
    (heard : Option LineChar) : exec (.echoFault heard) s = .next s := by
  cases heard with
  | none => exact exec_echoFault_missing_idle (h.imp id And.right)
  | some c => exact exec_echoFault_wrong_idle (h.imp id fun held => by simp [State.echoDiffers, held.1])

/-- The uplink receiver does not wait for a second CHECK character (R34). -/
theorem State.uplinkAtEnd_false {s : State} (h : ∀ f, s.uplink.frame = some f → f.atSecondCheck = false) :
    s.uplinkAtEnd = false := by
  unfold State.uplinkAtEnd
  cases hf : s.uplink.frame with
  | none => simp
  | some f => simp [h f hf]

/-- The segment receiver does not wait for a second CHECK character (R34). -/
theorem State.segmentAtEnd_false {s : State} (h : ∀ f, s.segment.state = .inFrame f → f.atSecondCheck = false) :
    s.segmentAtEnd = false := by
  unfold State.segmentAtEnd
  cases hf : s.segment.state with
  | lineIdle | muted => simp
  | inFrame f => simp [h f hf]

/-- The watch counter has no deadline outside AWAITING (R83, R88). -/
theorem State.deadlineDue_none {s : State} (h : ∀ g, s.engagement = some g → g.state = .awaiting →
    s.watch + 1 ≠ s.engagedDeadline g) : s.deadlineDue = none := by
  unfold State.deadlineDue
  split
  · rfl
  · next g hg => exact if_neg fun due => h g hg due.1 due.2

/-- The token counter does not expire outside HOLDING (R109, R122). -/
theorem State.tokenDue_none {s : State} (h : (∀ g, s.engagement = some g → g.state ≠ .holding) ∨ s.token ≠ 1) :
    s.tokenDue = none := by
  unfold State.tokenDue
  split
  · rfl
  · next g hg => exact if_neg fun due => h.elim (fun other => other g hg due.1) fun other => other due.2

/-- TAKE without its conditions, or with no free place, changes nothing (R66, R132; log 14). -/
theorem exec_take_idle {s : State}
    (h : (s.device ≠ .run ∧ s.device ≠ .standby) ∨ s.softResetUnderWay = true ∨ s.engagement ≠ none ∨
      s.downQueue = [] ∨ s.up.exchangeHeld = true ∨ 8 ≤ s.up.total) : exec .take s = .next s := by
  have refused : ¬ (s.exchangeAsks && decide (s.up.total < Config.upCapacity)) = true := by
    intro asked
    simp only [State.exchangeAsks, Bool.and_eq_true, Bool.or_eq_true, decide_eq_true_eq,
      Bool.not_eq_true', List.isEmpty_eq_false_iff, Option.isNone_iff_eq_none] at asked
    obtain ⟨⟨⟨⟨⟨device, reset⟩, idle⟩, queue⟩, place⟩, room⟩ := asked
    rcases h with ⟨run, standby⟩ | h | h | h | h | h
    · exact device.elim run standby
    · simp [reset] at h
    · exact h idle
    · exact queue h
    · simp [place] at h
    · exact absurd (show s.up.total < 8 from room) (Nat.not_lt.mpr h)
  show execTake s = _
  rw [execTake, if_neg refused]

/-- Settles O60: each command without its occasion. -/
theorem noOccasionNoEffect : Obligations.NoOccasionNoEffect := by
  intro s
  refine ⟨fun c code len row => exec_request_idle row, exec_badCommand_idle, ?rest, ?deaf, ?short, ?loud, ?offLine,
    ?onLine, ?noAbort, ?aborting, ?noExchange, ?noDeadline,
    fun other => exec_tokenExpiry_idle (State.tokenDue_none other), ?silent, ?noUplink, ?uplinkOpen, ?uplinkHeard,
    ?noFrame, ?frameOpen, ?heard,
    ?released, ?working, exec_take_idle⟩
  case rest =>
    intro works
    obtain ⟨atEnd, fragment, frames, quiet⟩ := links_idle works
    refine ⟨exec_lineQuiet_idle quiet, exec_transmissionComplete_idle (.inl works), exec_echoFault_idle (.inl works),
      exec_uplinkFrameEnd_idle atEnd, fun p => ?_⟩
    cases p with
    | uplink => exact exec_fragmentSilence_uplink_idle fragment
    | segment => exact exec_fragmentSilence_segment_idle (segment_idle frames).2.1
  case deaf =>
    intro deaf
    have frames := State.segmentFrames_false deaf
    obtain ⟨atEnd, fragment, jabber⟩ := segment_idle frames
    exact ⟨exec_jabber_idle jabber, exec_fragmentSilence_segment_idle fragment,
      fun v => ⟨exec_headArrival_idle frames v, exec_segmentFrameEnd_idle atEnd v⟩⟩
  case short =>
    intro short
    exact exec_jabber_idle (by simp [State.jabberDue, short])
  case loud =>
    intro loud
    refine exec_lineQuiet_idle ?_
    rcases loud with h | h | h
    · simp [State.quietDue, h]
    · simp [State.quietDue, h]
    · simp [State.quietDue, show s.transmitter.drives = true from h]
  case offLine =>
    intro offLine
    have held : s.transmitter.lastEchoDue = false ∧ s.transmitter.heldEcho = none ∧
        s.transmitter.echoMissing = false := by
      cases ht : s.transmitter with
      | onLine f sent compared => exact absurd ht (offLine f sent compared)
      | idle | gapWait | aborting => exact ⟨rfl, rfl, rfl⟩
    exact ⟨exec_transmissionComplete_idle (.inr held.1), exec_echoFault_idle (.inr held.2)⟩
  case onLine =>
    intro f sent compared ht
    refine ⟨fun early => exec_transmissionComplete_idle (.inr ?_), fun early => exec_echoFault_missing_idle (.inr ?_),
      fun c same => exec_echoFault_wrong_idle (.inr ?_)⟩
    · rw [ht]
      have whole : f.length = f.payload.length + 6 := rfl
      simp only [SegmentTransmitter.lastEchoDue, Bool.and_eq_false_iff, decide_eq_false_iff_not]
      omega
    · rw [ht]
      simp only [SegmentTransmitter.echoMissing, decide_eq_false_iff_not]
      omega
    · simp only [State.echoDiffers, ht, SegmentTransmitter.heldEcho]
      rcases same with same | same | ahead
      · rw [same]
        split <;> simp_all
      · simp [same]
      · simp [show ¬ compared ≤ sent by omega]
  case noAbort =>
    intro other
    refine exec_abortEnd_idle ?_
    cases ht : s.transmitter with
    | aborting left held => exact absurd ht (other left held)
    | idle | gapWait | onLine => rfl
  case aborting =>
    intro left held ht more
    refine exec_abortEnd_idle ?_
    rw [ht]
    simp only [SegmentTransmitter.abortEnds, decide_eq_false_iff_not]
    omega
  case noExchange =>
    intro other
    exact exec_deadlineExpiry_idle (State.deadlineDue_none fun g hg awaiting => absurd awaiting (other g hg))
  case noDeadline =>
    intro g j e hg hj he early
    refine exec_deadlineExpiry_idle (State.deadlineDue_none fun g' hg' _ => ?_)
    rw [hg] at hg'
    cases hg'
    simpa [State.engagedDeadline, State.entryAt, hj, he] using early
  case silent =>
    intro idle
    show execUplinkTransmissionComplete s = _
    simp [execUplinkTransmissionComplete, idle, UplinkTransmitter.isSending]
  case noUplink =>
    intro closed
    have atEnd := State.uplinkAtEnd_false (s := s) fun f open' => by simp [closed] at open'
    exact ⟨exec_uplinkFrameEnd_idle atEnd, exec_fragmentSilence_uplink_idle (by simp [State.uplinkFragmentDue, closed])⟩
  case uplinkOpen =>
    intro f hf early
    refine exec_uplinkFrameEnd_idle (State.uplinkAtEnd_false fun f' hf' => ?_)
    rw [hf] at hf'
    cases hf'
    exact Bool.eq_false_iff.mpr fun last => early (f.atSecondCheck_iff.mp last)
  case uplinkHeard =>
    intro heard
    exact exec_fragmentSilence_uplink_idle (by rcases heard with h | h <;> simp [State.uplinkFragmentDue, h])
  case noFrame =>
    intro closed
    have atEnd := State.segmentAtEnd_false (s := s) fun f open' => absurd open' (closed f)
    refine ⟨exec_segmentFrameEnd_idle atEnd, exec_fragmentSilence_segment_idle ?_⟩
    cases hs : s.segment.state with
    | inFrame f => exact absurd hs (closed f)
    | lineIdle | muted => simp [State.segmentFragmentDue, hs, ReceiverState.isInFrame]
  case frameOpen =>
    intro f hf early
    refine exec_segmentFrameEnd_idle (State.segmentAtEnd_false fun f' hf' => ?_)
    rw [hf] at hf'
    cases hf'
    exact Bool.eq_false_iff.mpr fun last => early (f.atSecondCheck_iff.mp last)
  case heard =>
    intro heard
    exact exec_fragmentSilence_segment_idle (by rcases heard with h | h <;> simp [State.segmentFragmentDue, h])
  case released =>
    intro other
    show execResetReleased s = _
    rw [execResetReleased, if_neg other]
  case working =>
    intro other
    show execInitialisationCompletes s = _
    rw [execInitialisationCompletes, if_neg other]

end Sys2Proof.Machine
end

section
/-! SUPPORT. The resets, RESET and INIT (R155, R156, R159 to R161). -/

namespace Sys2Proof.Machine

/-- Settles O3: the machine after reset is a hard reset, of itself. -/
theorem resetIsSound : Obligations.ResetIsSound :=
  have tables : Tables State.reset := Tables.reset rfl rfl rfl
  ⟨Accounts.hardReset (s := State.reset), Lines.hardReset (s := State.reset), tables.sound, tables.engaged⟩

/-- Settles O7: each block's value at the hard reset. -/
theorem hardResetValues : Obligations.HardResetValues := fun s =>
  ⟨s.hardReset, rfl, rfl, Table.get_empty, rfl, rfl, rfl, rfl, rfl, rfl, rfl, rfl, rfl, rfl, rfl, rfl, rfl, rfl, rfl,
    rfl, rfl, rfl, rfl, rfl, rfl, rfl, rfl, rfl⟩

/-- Settles O8: in RESET the ports and engines do not work, so no command but the two resets has its occasion. -/
theorem resetHoldsEveryBlock : Obligations.ResetHoldsEveryBlock := by
  intro c s other
  cases c with
  | resetReleased => exact absurd rfl other
  | fragmentSilence p => cases p <;> rfl
  | echoFault heard => cases heard <;> rfl
  | characterTaken p w => cases p <;> cases w <;> rfl
  | _ => rfl

/-- Settles O9: the release of RESET, and the end of INIT. -/
theorem initialisationBringsStandby : Obligations.InitialisationBringsStandby := by
  refine ⟨fun s hd => ?_, fun s hd => ⟨s.initialised, ?_, rfl, rfl⟩⟩
  · show execResetReleased s = _
    rw [execResetReleased, if_pos hd]
  · show execInitialisationCompletes s = _
    rw [execInitialisationCompletes, if_pos hd]

/-- With nothing owed, one character time passes in INIT (R150, R156). -/
theorem exec_characterTime_init {s : State} (hd : s.device = .init) (nothing : s.owed = []) :
    exec .characterTime s = .next s.passInitTime := by
  have settled : State.settleOwed s.owed.length s = s := by
    rw [nothing]
    exact congrArg (fun l => { s with owed := l }) nothing.symm
  show execCharacterTime s = _
  rw [execCharacterTime, settled]
  simp only [hd]

/-- With nothing owed, one character time passes where the ports work (R150). -/
theorem exec_characterTime_works {s : State} (hw : s.works = true) (nothing : s.owed = []) :
    exec .characterTime s = .next s.passTime := by
  have settled : State.settleOwed s.owed.length s = s := by
    rw [nothing]
    exact congrArg (fun l => { s with owed := l }) nothing.symm
  show execCharacterTime s = _
  rw [execCharacterTime, settled]
  simp only [State.works] at hw
  cases hd : s.device with
  | reset | init => simp [hd, DeviceState.works] at hw
  | standby | run | drain => rfl

/-- A character that comes where the ports do not work is ignored (R38, R59). -/
theorem exec_characterTaken_rest {s : State} (h : s.works = false) (p : Port) (w : LineMoment) :
    exec (.characterTaken p w) s = .next s := by
  show execCharacterTaken p w s = _
  cases w with
  | startBit => simp [execCharacterTaken, State.startBit, h]
  | character c => cases p <;> simp [execCharacterTaken, State.takeUplink, State.takeSegment, h]

/-- Settles O10: in INIT the ports do not work, and a character time moves the Line Clock and an abort procedure. -/
theorem initIgnoresCharacters : Obligations.InitIgnoresCharacters := by
  intro s hd
  have works : s.works = false := by simp [State.works, hd, DeviceState.works]
  obtain ⟨uplinkEnd, uplinkFragment, frames, quiet⟩ := links_idle works
  obtain ⟨segmentEnd, segmentFragment, jabber⟩ := segment_idle frames
  refine ⟨by simp [State.hold, hd], exec_characterTaken_rest works,
    fun v => ⟨exec_headArrival_idle frames v, exec_segmentFrameEnd_idle segmentEnd v,
      exec_uplinkFrameEnd_idle uplinkEnd v⟩,
    fun p => ?fragment, exec_jabber_idle jabber, exec_lineQuiet_idle quiet, fun nothing idle => ?clock,
    fun a b left held nothing aborting => ?abort⟩
  case fragment =>
    cases p with
    | uplink => exact exec_fragmentSilence_uplink_idle uplinkFragment
    | segment => exact exec_fragmentSilence_segment_idle segmentFragment
  case clock =>
    rw [exec_characterTime_init hd nothing]
    simp only [State.passInitTime, idle, SegmentTransmitter.tick]
    rw [← idle, ← nothing]
  case abort =>
    rw [exec_characterTime_init hd nothing]
    simp [State.passInitTime, aborting, SegmentTransmitter.tick, ← nothing]

/-- Settles O11: the reply carries the mark, and its completion is the soft reset. -/
theorem softResetTakesPlace : Obligations.SoftResetTakesPlace := by
  refine ⟨fun s h => ⟨_, ?_, rfl, ?_⟩, fun s f rest wire n frames mark sending => ⟨s.softReset, ?_, ?_, rfl, rfl, rfl⟩⟩
  · exact h.outcome (r := { status := .ok, detail := 0, results := [], mark := some .softReset }) rfl rfl h.works
  · simp [State.softResetUnderWay, State.replying]
  · show execUplinkTransmissionComplete s = _
    simp [execUplinkTransmissionComplete, sending, UplinkTransmitter.isSending, State.completeUplink, frames, mark]
  · exact Table.get_mapEntries s.table fun e => e.restart s.policy.probeInterval

end Sys2Proof.Machine
end

section
/-! SUPPORT. The output lines, the saturating counters, and GET_STATE (R11, R12, R42, R53, R65, R147, R175). -/

namespace Sys2Proof.Machine

/-- Settles O17: each output by its definition. -/
theorem holdAndAttn : Obligations.HoldAndAttn := by
  intro s
  refine ⟨?_, by simp [State.attn], fun f sent compared ht => ?_,
    fun left held ht => ?_, fun ht => ?_, fun f ht => ?_, fun ht => ?_⟩
  · simp only [State.hold, Bool.or_eq_true, decide_eq_true_eq, or_assoc]
    exact Iff.rfl
  · rw [State.sdrv, ht]
    exact decide_eq_true_iff
  · simp [State.sdrv, ht, SegmentTransmitter.drives]
  · simp [State.sdrv, ht, SegmentTransmitter.drives]
  · simp [State.sdrv, ht, SegmentTransmitter.drives]
  · simp [State.utxd, ht]

/-- A counter of n bits stands at its greatest value (R12, R145). -/
theorem satInc_eq {n : Nat} {top : BitVec n} (ht : BitVec.allOnes n = top) (x : BitVec n) :
    satInc x = if x = top then top else x + 1 := by
  subst ht
  unfold satInc
  split
  · next full => exact full
  · rfl

/-- Settles O21: the counters by their width, and the three turnaround values by what was recorded before. -/
theorem countersAndTurnarounds : Obligations.CountersAndTurnarounds := by
  refine ⟨satInc_eq rfl, satInc_eq rfl, fun t v => ?_⟩
  have least : (match t.min with
      | none => some v
      | some m => if v.toNat < m.toNat then some v else some m) =
      some (t.min.elim v fun m => if v < m then v else m) := by
    cases t.min with
    | none => rfl
    | some m => exact (apply_ite some _ _ _).symm
  have greatest : (match t.max with
      | none => some v
      | some m => if m.toNat < v.toNat then some v else some m) =
      some (t.max.elim v fun m => if m < v then v else m) := by
    cases t.max with
    | none => rfl
    | some m => exact (apply_ite some _ _ _).symm
  rw [← least, ← greatest]
  rfl

/-- Settles O46: the block of section 12.3.1, part by part. -/
theorem getStateAnswers : Obligations.GetStateAnswers := by
  intro s h
  refine ⟨s.device.code, engagementBytes s.engagement, s.policy.mode.byte, flagByte s.mutedFlag, ?answer,
    ?standby, ?run, ?drain, ?mode, ?muted, ?idle, ?engaged⟩
  case answer =>
    rw [← UpQueue.placesByte_eq s h.place]
    exact h.outcome (r := Reply.ok s.stateBlock) rfl rfl h.works
  case standby | run | drain =>
    intro hd
    rw [hd]
    rfl
  case mode => cases s.policy.mode <;> rfl
  case muted => simp [flagByte_eq, State.mutedFlag]
  case idle =>
    intro idle
    rw [idle]
    rfl
  case engaged =>
    intro g hg
    refine ⟨engagementCode (some g.state), g.kind.code.setWidth 8, ?_, ?_, ?_, ?_, ?_, ?_, ?_, ?_, ?_⟩
    · have index : indexByte g.index = g.index.elim 0xFF fun i => BitVec.ofNat 8 i.val := by cases g.index <;> rfl
      rw [hg, ← flagByte_eq, ← index]
      rfl
    all_goals intros
    all_goals simp [*, engagementCode, DownKind.code]

end Sys2Proof.Machine
end

section
/-! SUPPORT. The framer: what a body character does to an open frame, and a whole frame read back (R28, R31 to R34). -/

namespace Sys2Proof.Machine

/-! ### One body character -/

/-- A discarding frame keeps nothing (R33). -/
theorem OpenFrame.take_discarding {f : OpenFrame} {d : Damage} (hd : f.damage = some d) (v : Byte) :
    f.take v = .stillOpen f := by
  simp [OpenFrame.take, hd]

/-- KIND and SRC, and a LEN of up to 240, are kept and shifted in (R33). -/
theorem OpenFrame.take_header {f : OpenFrame} (hd : f.damage = none) {v : Byte} (short : f.kept.length ≤ 3)
    (fits : f.kept.length = 3 → v.toNat ≤ 240) :
    f.take v = .stillOpen { f with kept := f.kept ++ [v], register := crcByte f.register v } := by
  have noLen : f.kept[3]? = none := List.getElem?_eq_none short
  have keeps : ¬ (f.kept.length = 3 ∧ 240 < v.toNat) := fun tooLong =>
    absurd (fits tooLong.1) (Nat.not_le.mpr tooLong.2)
  simp only [OpenFrame.take, hd, noLen, if_neg keeps]

/-- A LEN above 240 turns the frame to discarding, and is neither kept nor shifted in (R33, log 26). -/
theorem OpenFrame.take_badLen {f : OpenFrame} (hd : f.damage = none) {v : Byte} (three : f.kept.length = 3)
    (tooLong : 240 < v.toNat) : f.take v = .stillOpen { f with damage := some .badLen } := by
  have noLen : f.kept[3]? = none := List.getElem?_eq_none three.le
  simp only [OpenFrame.take, hd, noLen, if_pos (And.intro three tooLong)]

/-- PAYLOAD is kept and shifted in (R33). -/
theorem OpenFrame.take_payload {f : OpenFrame} (hd : f.damage = none) {len : Byte} (hl : f.kept[3]? = some len)
    (v : Byte) (inside : f.kept.length < len.toNat + 4) :
    f.take v = .stillOpen { f with kept := f.kept ++ [v], register := crcByte f.register v } := by
  simp only [OpenFrame.take, hd, hl, if_pos inside]

/-- The first CHECK character is kept and not shifted in (R34). -/
theorem OpenFrame.take_firstCheck {f : OpenFrame} (hd : f.damage = none) {len : Byte} (hl : f.kept[3]? = some len)
    (v : Byte) (here : f.kept.length = len.toNat + 4) : f.take v = .stillOpen { f with kept := f.kept ++ [v] } := by
  simp only [OpenFrame.take, hd, hl, if_neg here.not_lt, if_pos here]

/-- The second CHECK character ends the frame, by whether the two agree with the register (R34). -/
theorem OpenFrame.take_secondCheck {f : OpenFrame} (hd : f.damage = none) {len : Byte} (hl : f.kept[3]? = some len)
    (v : Byte) (here : f.kept.length = len.toNat + 5) : f.take v = .ended
      (if half (f.kept.getD (len.toNat + 4) 0) v = f.register then .intact f.fields else .damaged .check) := by
  simp only [OpenFrame.take, hd, hl, here, show ¬ len.toNat + 5 < len.toNat + 4 by omega,
    show ¬ len.toNat + 5 = len.toNat + 4 by omega, if_false]
  split <;> rfl

/-- The payload of a frame whose LEN is this one (R37). -/
theorem OpenFrame.fields_of_len {f : OpenFrame} {len : Byte} (hl : f.kept[3]? = some len) : f.fields =
    { dest := f.kept.getD 0 0, code := kindCode (f.kept.getD 1 0), src := f.kept.getD 2 0,
      payload := (f.kept.drop 4).take len.toNat } := by
  have third : f.kept.getD 3 0 = len := by rw [List.getD_eq_getElem?_getD, hl, Option.getD_some]
  rw [OpenFrame.fields, third]

/-- Settles O12: one lemma per position. -/
theorem framerTakesBodyCharacter : Obligations.FramerTakesBodyCharacter := by
  intro f v
  refine ⟨fun d hd => f.take_discarding hd v, fun hd =>
    ⟨fun short => ?header, fun three fits => ?len, fun three tooLong => ?bad, fun len hl =>
      ⟨f.take_payload hd hl v, f.take_firstCheck hd hl v, fun here agree => ?intact, fun here differ => ?check⟩⟩⟩
  case header => exact f.take_header hd short.le fun three => absurd three short.ne
  case len => exact f.take_header hd three.le fun _ => fits
  case bad => exact f.take_badLen hd three tooLong
  case intact => rw [f.take_secondCheck hd hl v here, if_pos agree, f.fields_of_len hl]
  case check => rw [f.take_secondCheck hd hl v here, if_neg differ]

/-! ### A whole frame -/

/-- A frame that has taken DEST and these body characters before CHECK: they are kept, and the register is their check
(R31, R33). -/
def bodyFrame (dest : Byte) (l : List Byte) : OpenFrame :=
  { kept := dest :: l, register := crc (dest :: l), damage := none }

/-- The check of one character more (R31). -/
theorem crc_concat (l : List Byte) (v : Byte) : crc (l ++ [v]) = crcByte (crc l) v := by
  simp [crc]

/-- What a frame left open by some characters does with those that follow. -/
theorem OpenFrame.takeAll_append {f f' : OpenFrame} {a : List Byte} (h : f.takeAll a = .stillOpen f') (b : List Byte) :
    f.takeAll (a ++ b) = f'.takeAll b := by
  induction a generalizing f with
  | nil =>
    cases h
    rfl
  | cons v a ih =>
    simp only [OpenFrame.takeAll, List.cons_append] at h ⊢
    split at h
    · exact ih h
    · cases h

/-- One more character of the fields before CHECK: KIND, SRC, LEN or PAYLOAD (R33). -/
theorem bodyFrame_take {dest kind src : Byte} {payload l : List Byte} {v : Byte} (fits : payload.length ≤ 240)
    (next : l ++ [v] <+: [kind, src, BitVec.ofNat 8 payload.length] ++ payload) :
    (bodyFrame dest l).take v = .stillOpen (bodyFrame dest (l ++ [v])) := by
  have register : crc (dest :: (l ++ [v])) = crcByte (crc (dest :: l)) v := crc_concat (dest :: l) v
  have grown : bodyFrame dest (l ++ [v]) =
      { bodyFrame dest l with kept := (bodyFrame dest l).kept ++ [v]
                              register := crcByte (bodyFrame dest l).register v } := by
    rw [bodyFrame, register]
    rfl
  have lenChar : (BitVec.ofNat 8 payload.length).toNat = payload.length := by
    rw [BitVec.toNat_ofNat]
    omega
  rw [grown]
  match l, next with
  | [], _ => exact OpenFrame.take_header rfl (by simp [bodyFrame]) (by simp [bodyFrame])
  | [_], _ => exact OpenFrame.take_header rfl (by simp [bodyFrame]) (by simp [bodyFrame])
  | [_, _], next =>
    have isLen : v = BitVec.ofNat 8 payload.length := by
      simp only [List.cons_append, List.nil_append, List.cons_prefix_cons] at next
      exact next.2.2.1
    refine OpenFrame.take_header rfl (by simp [bodyFrame]) fun _ => ?_
    rw [isLen, lenChar]
    exact fits
  | _ :: _ :: c :: l, next =>
    have isLen : c = BitVec.ofNat 8 payload.length := by
      simp only [List.cons_append, List.nil_append, List.cons_prefix_cons] at next
      exact next.2.2.1
    have inside := next.length_le
    simp only [List.length_append, List.length_cons, List.length_nil] at inside
    refine OpenFrame.take_payload (len := c) rfl rfl v ?_
    simp only [bodyFrame, List.length_cons, isLen, lenChar]
    omega

/-- The fields before CHECK leave the frame open, with each of them kept (R33). -/
theorem readFrame_prefix {dest kind src : Byte} {payload : List Byte} (fits : payload.length ≤ 240) (l : List Byte)
    (part : l <+: [kind, src, BitVec.ofNat 8 payload.length] ++ payload) :
    readFrame dest l = .stillOpen (bodyFrame dest l) := by
  induction l using List.reverseRecOn with
  | nil => rfl
  | append_singleton l v ih =>
    have before := ih ((List.prefix_append l [v]).trans part)
    unfold readFrame at before ⊢
    rw [OpenFrame.takeAll_append before, OpenFrame.takeAll, bodyFrame_take fits part]
    rfl

/-- All the fields before CHECK are kept, with LEN in its place; the first CHECK character is due (R28, R33). -/
theorem bodyFrame_complete (dest kind src : Byte) {payload : List Byte} (fits : payload.length ≤ 240) :
    let f := bodyFrame dest ([kind, src, BitVec.ofNat 8 payload.length] ++ payload)
    f.kept[3]? = some (BitVec.ofNat 8 payload.length) ∧
      f.kept.length = (BitVec.ofNat 8 payload.length).toNat + 4 := by
  refine ⟨rfl, ?_⟩
  simp only [bodyFrame, List.length_append, List.length_cons, List.length_nil, BitVec.toNat_ofNat]
  omega

/-- The first CHECK character leaves the frame open (R34). -/
theorem readFrame_firstCheck (dest kind src c1 : Byte) {payload : List Byte} (fits : payload.length ≤ 240) :
    let rest := [kind, src, BitVec.ofNat 8 payload.length] ++ payload
    readFrame dest (rest ++ [c1]) = .stillOpen { bodyFrame dest rest with kept := dest :: (rest ++ [c1]) } := by
  intro rest
  obtain ⟨hl, here⟩ := bodyFrame_complete dest kind src fits
  have before := readFrame_prefix (dest := dest) fits rest (List.prefix_refl _)
  unfold readFrame at before ⊢
  rw [OpenFrame.takeAll_append before, OpenFrame.takeAll, OpenFrame.take_firstCheck rfl hl c1 here]
  rfl

/-- The second CHECK character ends the frame, intact where the two are the check of the frame (R31, R34). -/
theorem readFrame_secondCheck (dest kind src c1 c2 : Byte) {payload : List Byte} (fits : payload.length ≤ 240) :
    let rest := [kind, src, BitVec.ofNat 8 payload.length] ++ payload
    readFrame dest (rest ++ [c1, c2]) = .ended
      (if half c1 c2 = crc (dest :: rest) then
        .intact { dest := dest, code := kindCode kind, src := src, payload := payload }
       else .damaged .check) := by
  intro rest
  obtain ⟨hl, here⟩ := bodyFrame_complete dest kind src fits
  have before := readFrame_firstCheck dest kind src c1 fits
  have split : rest ++ [c1, c2] = (rest ++ [c1]) ++ [c2] := by simp
  have lenChar : (BitVec.ofNat 8 payload.length).toNat = payload.length := by
    rw [BitVec.toNat_ofNat]
    omega
  unfold readFrame at before ⊢
  have last : (dest :: (rest ++ [c1])).length = (BitVec.ofNat 8 payload.length).toNat + 5 := by
    simp only [rest, lenChar, List.length_append, List.length_cons, List.length_nil]
    omega
  rw [split, OpenFrame.takeAll_append before, OpenFrame.takeAll,
    OpenFrame.take_secondCheck rfl (len := BitVec.ofNat 8 payload.length) rfl c2 last]
  have first : (dest :: (rest ++ [c1])).getD ((BitVec.ofNat 8 payload.length).toNat + 4) 0 = c1 := by
    simp [rest, lenChar]
  rw [first, OpenFrame.fields_of_len (len := BitVec.ofNat 8 payload.length) rfl]
  simp [rest, lenChar, bodyFrame]

/-- Settles O13: a proper part of the frame leaves it open, and the last character ends it. -/
theorem framesReadBack : Obligations.FramesReadBack := by
  intro dest kind src payload fits rest
  have check : halfBytes (crc (dest :: rest)) = [highByte (crc (dest :: rest)), lowByte (crc (dest :: rest))] := rfl
  refine ⟨rfl, ?intact, fun c1 c2 wrong => ?wrong, fun n part => ?part⟩
  case intact => rw [check, readFrame_secondCheck dest kind src _ _ fits, half_high_low, if_pos rfl]
  case wrong => rw [readFrame_secondCheck dest kind src c1 c2 fits, if_neg wrong]
  case part =>
    rcases Nat.lt_or_ge rest.length n with last | fields
    · have one : n = rest.length + 1 := by omega
      refine ⟨_, Eq.trans (congrArg _ ?_) (readFrame_firstCheck dest kind src (highByte (crc (dest :: rest))) fits)⟩
      rw [one, check, List.take_append, List.take_of_length_le (Nat.le_succ _), Nat.add_sub_cancel_left]
      rfl
    · rw [List.take_append_of_le_length fields]
      exact ⟨_, readFrame_prefix fits _ (List.take_prefix n rest)⟩

end Sys2Proof.Machine
end

section
/-! SUPPORT. Kinds, numbers and records as characters (R24, R28, R43, R164, R191 to R194). -/

namespace Sys2Proof.Machine

/-! ### Yes/no and mode characters -/

@[simp] theorem readFlag_flagByte (b : Bool) : readFlag (flagByte b) = b := by cases b <;> rfl

@[simp] theorem readMode_byte (m : Mode) : readMode m.byte = m := by cases m <;> rfl

@[simp] theorem readRateMode_byte (m : RateMode) : readRateMode m.byte = m := by cases m <;> rfl

@[simp] theorem readAdmin_byte (a : Admin) : readAdmin a.byte = a := by cases a <;> rfl

/-- A yes/no character is 0 or any other value (R164, R192). -/
theorem readFlag_eq (b : Byte) : readFlag b = decide (b ≠ 0) := by
  rw [readFlag, bne, beq_eq_decide, decide_not]

/-! ### Frames -/

/-- The KIND character of an upstream frame as a sum of its three parts (R191). -/
theorem kindByte_upstream (k : UpKind) (aux attention : Bool) : kindByte k.code aux attention =
    (match k with | .response => 1 | .publish => 3 | .returned => 5 | .substitute => 6 | .mrsp => 8 : Byte) +
      (if aux = true then 0x40 else 0) + (if attention = true then 0x80 else 0) := by
  cases k <;> revert aux attention <;> decide

/-- A frame on either link: DEST is the one head character (R28). -/
theorem frameChars_eq (dest kind src : Byte) (payload : List Byte) :
    let fields := [kind, src, BitVec.ofNat 8 payload.length] ++ payload
    frameChars (frameBody dest kind src payload) =
      ⟨true, dest⟩ :: (fields ++ halfBytes (crc (dest :: fields))).map fun b => ⟨false, b⟩ := rfl

/-- The length of a frame on either link, LEN + 6 (R28). -/
theorem frameChars_length (dest kind src : Byte) (payload : List Byte) :
    (frameChars (frameBody dest kind src payload)).length = payload.length + 6 := by
  rw [frameChars_eq]
  simp [halfBytes]

/-! ### The Policy Record and the configuration -/

/-- The Policy Record is read back from its characters (R193). -/
theorem readPolicyRecord_bytes (p : Policy) : readPolicyRecord p.bytes = some p := by
  simp [Policy.bytes, halfBytes, readPolicyRecord]

/-- The configuration is read back from its characters (R193). -/
theorem readConfiguration_bytes (c : Configuration) : readConfiguration c.bytes = some c := by
  simp [Configuration.bytes, halfBytes, readConfiguration]

/-- Settles O14: kinds and frames, then numbers and records, then the characters of a WRITE_POLICY. -/
theorem numbersAndRecordsRead : Obligations.NumbersAndRecordsRead := by
  refine ⟨⟨?kinds, rfl, rfl, ?check, fun f attention => ⟨?wire, ?length⟩, ?down⟩,
    ⟨fun h => ⟨rfl, half_high_low h, half_bytes_toNat h⟩, fun w => ⟨_, _, _, _, rfl, word_bytes w, word_bytes_toNat w⟩,
      fun p => ⟨readPolicyRecord_bytes p, rfl⟩, fun c => ⟨readConfiguration_bytes c, rfl⟩⟩, ?write⟩
  case kinds => decide
  case check => decide +kernel
  case wire =>
    rw [UpFrame.wire, kindByte_upstream]
    rfl
  case length => exact frameChars_length _ _ _ _
  case down =>
    intro k
    cases k <;> rfl
  case write =>
    intro ga gap j1 j0 th pi ba mo um u1 u0 sm s1 s0
    rw [← readFlag_eq]
    rfl

/-! ### The entry record and the event record -/

/-- The record of a valid entry has 45 characters (R194). -/
theorem entryRecord_length (i : Fin 64) (e : Entry) : (entryRecord i (some e)).length = 45 := by
  simp only [entryRecord, Configuration.bytes, Statistics.bytes, turnaroundBytes, halfBytes, List.length_append,
    List.length_cons, List.length_nil]

/-- Settles O54: the records are lists of their characters; each code is read off its kind. -/
theorem recordsAsSent : Obligations.RecordsAsSent := by
  refine ⟨fun _ => rfl, fun i e => ⟨entryRecord_length i e, pendingByte e.pending, e.status.code,
    outcomeByte e.lastOutcome, ?record, ?none, ?write, ?delete, ?enabled, ?barred, ?disabled, ?noOutcome, ?outcome⟩,
    fun r => ⟨r.kind.code, ?event, ?kind⟩, ?damage⟩
  case record =>
    have admin : e.config.admin.byte = if e.config.admin = .enabled then 1 else 0 := by cases e.config.admin <;> rfl
    simp only [entryRecord, Configuration.bytes, Statistics.bytes, turnaroundBytes, admin, flagByte_eq,
      List.append_assoc, List.cons_append, List.nil_append]
  case none | delete | enabled | barred | disabled | noOutcome =>
    intro h
    rw [h]
    rfl
  case write =>
    intro c h
    rw [h]
    rfl
  case outcome =>
    intro k h
    rw [h]
    cases k <;> rfl
  case event =>
    have index : indexByte r.index = r.index.elim 0xFF fun i => BitVec.ofNat 8 i.val := by cases r.index <;> rfl
    rw [← index]
    rfl
  case kind => cases r.kind <;> rfl
  case damage =>
    intro d
    cases d <;> rfl

end Sys2Proof.Machine
end

section
/-! SUPPORT. Characters on the uplink, and the fate of the frames they end (R26, R27, R32 to R35, R38 to R41). -/

namespace Sys2Proof.Machine

/-- A character on the uplink where the ports work (R26, R38). -/
theorem exec_character_uplink {s : State} (hw : s.works = true) (c : LineChar) :
    exec (.characterTaken .uplink (.character c)) s = .next (s.hearUplink.frameUplink c) := by
  show execCharacterTaken .uplink (.character c) s = _
  simp [execCharacterTaken, State.takeUplink, hw]

/-- An open uplink frame that is cut short (R35, R39). -/
theorem State.fragmentUplink_open {s : State} {f : OpenFrame} (hf : s.uplink.frame = some f) :
    s.fragmentUplink = ({ s with uplink := { s.uplink with frame := none } } : State).posting
      [s.eventNow .uplinkDamaged none none (codeDetail (f.damage.getD .fragment).code)] := by
  simp only [State.fragmentUplink, hf, State.judgeUplink, OpenFrame.cut, State.post_eq]
  rfl

/-- Settles O15: a start bit, a head character and a body character. -/
theorem uplinkCharacterTaken : Obligations.UplinkCharacterTaken := by
  intro s v hw
  refine ⟨?startBit, fun closed => ⟨?opens, ?unkept⟩, fun f hf => ⟨?reopens, fun f' stays => ?taken⟩⟩
  case startBit =>
    show execCharacterTaken .uplink .startBit s = _
    simp [execCharacterTaken, State.startBit, hw]
  case opens =>
    rw [exec_character_uplink hw]
    simp only [State.frameUplink, if_true, State.fragmentUplink, State.hearUplink, closed]
    rfl
  case unkept =>
    rw [exec_character_uplink hw]
    simp only [State.frameUplink, State.hearUplink, closed]
    rfl
  case reopens =>
    have hf' : s.hearUplink.uplink.frame = some f := hf
    rw [exec_character_uplink hw, State.frameUplink, if_pos rfl, State.fragmentUplink_open hf']
    rfl
  case taken =>
    have hf' : s.hearUplink.uplink.frame = some f := hf
    rw [exec_character_uplink hw]
    simp only [State.frameUplink, hf', stays]
    rfl

/-- A grant that depends on a condition, as one update of the Up Queue (R132). -/
theorem State.grantManagement_if (t : State) (b : Bool) : (if b then t.grantManagement else t) =
    { t with up := { t.up with managementHeld := t.up.managementHeld || b } } := by
  cases b <;> simp [State.grantManagement]

/-- A request that reaches the Slot (R40, R132, R169). -/
theorem State.placeRequest_eq {s : State} (hw : s.works = true) (p : List Byte) : s.placeRequest p =
    match s.slot with
    | some _ => s.posting [s.eventNow .mgmtOverrun none none 0]
    | none =>
      { s with
        slot := some p
        up := { s.up with
          managementHeld := s.up.managementHeld || (!s.softResetUnderWay && decide (s.up.total < 8)) } } := by
  unfold State.placeRequest
  cases slot : s.slot with
  | some _ => exact State.post_eq _ _ _ _ _
  | none =>
    have asks : ({ s with slot := some p } : State).managementAsks =
        (!s.up.managementHeld && !s.softResetUnderWay) := by
      show (true && !s.up.managementHeld && !s.softResetUnderWay && s.works) = _
      simp [hw]
    have held : ∀ a b : Bool, (a || (!a && b)) = (a || b) := by decide
    simp only [State.grantManagement_if, asks, Bool.and_assoc, held]
    rfl

/-- The fate of an intact uplink frame: the first of the rows that fits (R39 to R41). -/
theorem State.judgeUplink_intact {s : State} (hw : s.works = true) (m : Frame) :
    let outer := if m.dest = 255 then none else some m.dest
    s.judgeUplink (.intact m) =
      if m.dest = s.policy.gateAddress ∧ m.code = 7 then
        match s.slot with
        | some _ => s.posting [s.eventNow .mgmtOverrun none none 0]
        | none =>
          { s with
            slot := some m.payload
            up := { s.up with
              managementHeld := s.up.managementHeld || (!s.softResetUnderWay && decide (s.up.total < 8)) } }
      else if m.dest = s.policy.gateAddress ∨ m.code = 7 ∨ (m.code = 4 ∧ m.payload.length ≠ 2) ∨
          ¬ (m.code = 0 ∨ m.code = 2 ∨ m.code = 4) then
        s.posting [s.eventNow .uplinkWrongKind none outer (m.code.setWidth 16)]
      else if s.downQueue.length < 4 then
        { s with
          downQueue := s.downQueue ++
            [{ kind := if m.code = 0 then .request else if m.code = 2 then .send else .grant, dest := m.dest,
               payload := m.payload }] }
      else s.posting [s.eventNow .downFull none outer 0] := by
  intro outer
  have wrong : s.uplinkWrongKind m = s.posting [s.eventNow .uplinkWrongKind none outer (m.code.setWidth 16)] :=
    State.post_eq _ _ _ _ _
  have join (k : DownKind) : s.joinDown { kind := k, dest := m.dest, payload := m.payload } =
      if s.downQueue.length < 4 then
        { s with downQueue := s.downQueue ++ [{ kind := k, dest := m.dest, payload := m.payload }] }
      else s.posting [s.eventNow .downFull none outer 0] := by
    rw [← State.post_eq]
    rfl
  rw [← State.placeRequest_eq hw, ← wrong, ← join]
  unfold State.judgeUplink mreqCode
  by_cases gate : m.dest = s.policy.gateAddress
  · by_cases mreq : m.code = 7 <;> simp [gate, mreq]
  · by_cases mreq : m.code = 7
    · simp [gate, mreq]
    · by_cases grant : m.code = 4
      · simp [gate, grant, downKind, DownKind.code]
      · by_cases request : m.code = 0
        · simp [gate, request, downKind, DownKind.code]
        · by_cases send : m.code = 2
          · simp [gate, send, downKind, DownKind.code]
          · have none : downKind m.code = none := by simp_all [downKind, DownKind.code]
            simp_all

/-- Settles O16: the frame ends on its second CHECK character, and is judged. -/
theorem uplinkFrameJudged : Obligations.UplinkFrameJudged := by
  intro s f len v hw hf hd hl here s' dest code payload outer
  have atEnd : s.uplinkAtEnd = true := by
    have last : f.atSecondCheck = true := f.atSecondCheck_iff.mpr ⟨hd, len, hl, here⟩
    simp [State.uplinkAtEnd, hw, hf, last]
  have same : exec (.characterTaken .uplink (.character ⟨false, v⟩)) s = exec (.uplinkFrameEnd v) s := by
    show _ = execUplinkFrameEnd v s
    rw [execUplinkFrameEnd, if_pos atEnd]
    rfl
  have size : payload.length = len.toNat := by
    simp only [payload, List.length_take, List.length_drop]
    omega
  have two : payload.length ≠ 2 ↔ len ≠ 2 := by
    rw [size, ← BitVec.toNat_ne_iff_ne]
    rfl
  refine ⟨same, ?_⟩
  rw [← same, exec_character_uplink hw]
  have hf' : s.hearUplink.uplink.frame = some f := hf
  simp only [State.frameUplink, hf', f.take_secondCheck hd hl v here, f.fields_of_len hl]
  by_cases agree : half (f.kept.getD (len.toNat + 4) 0) v = f.register
  · rw [if_pos agree, if_neg (not_not.mpr agree)]
    have judged := State.judgeUplink_intact (s := s') hw
      { dest := dest, code := code, src := f.kept.getD 2 0, payload := payload }
    simp only [two] at judged
    exact congrArg _ judged
  · rw [if_neg agree, if_pos agree]
    exact congrArg _ (State.post_eq s' _ _ _ _)

/-- Settles O18: the occasion of FRAGMENT_SILENCE on each port, and the frame it ends. -/
theorem silenceEndsFrames : Obligations.SilenceEndsFrames := by
  intro s f hw
  refine ⟨fun hf mid silence => ?uplink, fun hf free mid silence => ?segment⟩
  case uplink =>
    have due : s.uplinkFragmentDue = true := by simp [State.uplinkFragmentDue, hw, hf, mid, silence]
    show Host.Outcome.next s.takeUplinkFragment = _
    rw [State.takeUplinkFragment, if_pos due,
      State.fragmentUplink_open (s := { s with uplink := { s.uplink with silence := 2 } }) hf]
    simp only [mid]
    rfl
  case segment =>
    have due : s.segmentFragmentDue = true := by
      simp [State.segmentFragmentDue, State.segmentFrames, ReceiverState.isInFrame, hw, hf, free, mid, silence]
    show Host.Outcome.next s.takeSegmentFragment = _
    rw [State.takeSegmentFragment, if_pos due, State.fragmentSegment]
    simp only [hf, mid]
    rfl

end Sys2Proof.Machine
end

section
/-! SUPPORT. Characters on the segment, and the frames they open and end (R26, R32 to R37, R46, R48). -/

namespace Sys2Proof.Machine

/-! ### Characters -/

/-- A character on the segment, by the command that tells of it and by the two that name what it does (R26). -/
theorem exec_character_segment (s : State) (c : LineChar) :
    exec (.characterTaken .segment (.character c)) s = .next (s.takeSegment c) := rfl

/-- A character while the transmitter does not hold the line and the receiver is not MUTED is framed (R26, R45). -/
theorem State.takeSegment_framed {s : State} (hw : s.works = true) (free : s.transmitter.holdsLine = false)
    (listens : s.segment.state ≠ .muted) (c : LineChar) : s.takeSegment c =
      if c.head then s.resumed.hearSegment.countRun.openSegment c.value
      else s.resumed.hearSegment.countRun.bodySegment c.value := by
  simp only [State.takeSegment, if_pos hw, State.resumeRun_eq]
  have transmitter : s.resumed.hearSegment.transmitter = s.transmitter := rfl
  have state : s.resumed.hearSegment.segment.state = s.segment.state := rfl
  rw [transmitter, state]
  cases ht : s.transmitter with
  | onLine | aborting => simp [ht, SegmentTransmitter.holdsLine] at free
  | idle | gapWait =>
    cases hs : s.segment.state with
    | muted => exact absurd hs listens
    | lineIdle | inFrame => rfl

/-- A character in ABORTING, or that a MUTED receiver hears, is line activity alone (R50, R56). -/
theorem State.takeSegment_unframed {s : State} (hw : s.works = true)
    (h : (∃ left held, s.transmitter = .aborting left held) ∨
      s.transmitter.holdsLine = false ∧ s.segment.state = .muted) (c : LineChar) :
    s.takeSegment c = s.resumed.hearSegment := by
  simp only [State.takeSegment, if_pos hw, State.resumeRun_eq]
  have transmitter : s.resumed.hearSegment.transmitter = s.transmitter := rfl
  have state : s.resumed.hearSegment.segment.state = s.segment.state := rfl
  rw [transmitter, state]
  rcases h with ⟨left, held, ht⟩ | ⟨free, muted⟩
  · rw [ht]
  · rw [muted]
    cases ht : s.transmitter with
    | onLine => simp [ht, SegmentTransmitter.holdsLine] at free
    | idle | gapWait | aborting => rfl

/-- The receiver frames what it hears (R26, R45). -/
theorem State.segmentFrames_true {s : State} (hw : s.works = true) (free : s.transmitter.holdsLine = false)
    (listens : s.segment.state ≠ .muted) : s.segmentFrames = true := by
  simp [State.segmentFrames, hw, free, listens]

/-! ### The end of a frame -/

/-- The second CHECK character, taken by CHARACTER_TAKEN (R34, R37). -/
theorem SegmentEnds.exec_character {s : State} {f : OpenFrame} {v : Byte} {e : Ended} (h : SegmentEnds s f v e) :
    exec (.characterTaken .segment (.character ⟨false, v⟩)) s = .next (s.frameOver.engineFrame e) := by
  have state : s.resumed.hearSegment.countRun.segment.state = .inFrame f := h.frame
  rw [exec_character_segment, State.takeSegment_framed h.works h.free (by simp [h.frame]), if_neg (by simp)]
  simp only [State.bodySegment, state, h.ends]
  rfl

/-- The second CHECK character, taken by SEGMENT_FRAME_END (R34, R37). -/
theorem SegmentEnds.exec_segmentFrameEnd {s : State} {f : OpenFrame} {v : Byte} {e : Ended} (h : SegmentEnds s f v e) :
    exec (.segmentFrameEnd v) s = .next (s.frameOver.engineFrame e) := by
  have atEnd : s.segmentAtEnd = true := by
    simp [State.segmentAtEnd, State.segmentFrames, h.works, h.free, h.frame, h.last]
  rw [← h.exec_character]
  show execSegmentFrameEnd v s = _
  rw [execSegmentFrameEnd, if_pos atEnd]
  rfl

/-- A frame that ends damaged is handed to the Exchange Engine, whichever command ends it (R34, R35, R37). -/
theorem EndsDamaged.exec {s s' : State} {c : Instr} {d : Damage} (h : EndsDamaged s c d s') :
    exec c s = .next (s'.engineFrame (.damaged d)) := by
  rcases h with ⟨f, v, rfl, ends, rfl⟩ | ⟨f, rfl, hw, free, hf, mid, silence, rfl, rfl⟩
  · exact ends.exec_segmentFrameEnd
  · exact (silenceEndsFrames s f hw).2 hf free mid silence

/-! ### A head character -/

/-- A head character opens a frame, and is reported (R32, R37). -/
theorem exec_headArrival {s : State} (hw : s.works = true) (free : s.transmitter.holdsLine = false)
    (listens : s.segment.state ≠ .muted) (v : Byte) :
    exec (.headArrival v) s = .next (s.resumed.hearSegment.countRun.openSegment v) := by
  show execHeadArrival v s = _
  rw [execHeadArrival, if_pos (State.segmentFrames_true hw free listens), State.takeSegment_framed hw free listens,
    if_pos rfl]

/-- A head character in an open frame: it ends that frame as a fragment first (R35). -/
theorem exec_headArrival_inFrame {s : State} {f : OpenFrame} (hw : s.works = true)
    (free : s.transmitter.holdsLine = false) (hf : s.segment.state = .inFrame f) (v : Byte) :
    exec (.headArrival v) s = .next (State.engineHead
      ((s.frameOver.engineFrame (.damaged (f.damage.getD .fragment))).setReceiver (.inFrame (OpenFrame.open v)))) := by
  have state : s.resumed.hearSegment.countRun.segment.state = .inFrame f := hf
  rw [exec_headArrival hw free (by simp [hf]), State.openSegment, State.fragmentSegment]
  simp only [state]
  rfl

/-- A head arrival is reported to no effect in STANDBY and outside AWAITING (R60, R87, R102, R105, R112). -/
theorem State.engineHead_ignored {s : State}
    (h : s.device = .standby ∨ ∀ g, s.engagement = some g → g.state ≠ .awaiting) : s.engineHead = s := by
  unfold State.engineHead
  split
  · rfl
  · next device =>
    split
    · rfl
    · next g hg =>
      split
      · next awaiting => exact absurd awaiting (h.elim (fun standby => absurd standby device) fun other => other g hg)
      · rfl

/-- A head arrival in AWAITING moves the exchange to RECEIVING (R89). -/
theorem State.engineHead_awaiting {s : State} {g : Engagement} (hd : s.device ≠ .standby)
    (hg : s.engagement = some g) (awaiting : g.state = .awaiting) : s.engineHead =
      { s with engagement := some { g with state := .receiving, headArrival := some s.clock } } := by
  simp only [State.engineHead, if_neg hd, hg, awaiting]

/-- Settles O19: a start bit, then by the state of the transmitter and of the receiver. -/
theorem segmentCharacterTaken : Obligations.SegmentCharacterTaken := by
  refine ⟨fun s v hw => ?_, fun s f v e h => ⟨h.exec_segmentFrameEnd, h.exec_character⟩⟩
  intro heard run
  refine ⟨?startBit, fun c left held ht => ?aborting, fun free => ⟨fun c hm => ?muted, fun idle => ?lineIdle,
    fun f f' hf stays => ?inFrame⟩⟩
  case startBit =>
    show Host.Outcome.next (s.startBit .segment) = _
    rw [State.startBit, if_pos hw, State.resumeRun_eq]
    rfl
  case aborting =>
    have quiet : s.resumed = s := State.resumed_of_holdsLine (by rw [ht]; rfl)
    rw [exec_character_segment, State.takeSegment_unframed hw (.inl ⟨left, held, ht⟩), quiet]
    rfl
  case muted =>
    have quiet : s.resumed = s := State.resumed_of_noFrame (by simp [hm])
    rw [exec_character_segment, State.takeSegment_unframed hw (.inr ⟨free, hm⟩), quiet]
    rfl
  case lineIdle =>
    rw [exec_character_segment, State.takeSegment_framed hw free (by simp [idle]), if_neg (by simp), State.bodySegment]
    have state : s.resumed.hearSegment.countRun.segment.state = .lineIdle := idle
    simp only [state]
    rw [show s.resumed.hearSegment.countRun = run s.segment.state from rfl, idle]
  case inFrame =>
    rw [exec_character_segment, State.takeSegment_framed hw free (by simp [hf]), if_neg (by simp), State.bodySegment]
    have state : s.resumed.hearSegment.countRun.segment.state = .inFrame f := hf
    simp only [state, stays]
    rfl

/-- Settles O20: with no frame open, and with one. -/
theorem headArrivalOpensFrame : Obligations.HeadArrivalOpensFrame := by
  intro s v hw free listens opened
  refine ⟨?same, fun idle => ⟨fun other => ?ignored, fun g hd hg awaiting => ?awaiting⟩, fun f hf => ?inFrame⟩
  case same =>
    rw [exec_headArrival hw free listens, exec_character_segment, State.takeSegment_framed hw free listens, if_pos rfl]
  case inFrame => exact exec_headArrival_inFrame hw free hf v
  all_goals
    have quiet : s.resumed = s := State.resumed_of_noFrame (by simp [idle])
    have none : s.hearSegment.countRun.fragmentSegment = s.hearSegment.countRun := by
      have state : s.hearSegment.countRun.segment.state = .lineIdle := idle
      simp only [State.fragmentSegment, state]
    rw [exec_headArrival hw free listens, quiet, State.openSegment, none]
  · exact congrArg _ (State.engineHead_ignored (s := opened s) other)
  · exact congrArg _ (State.engineHead_awaiting (s := opened s) hd hg awaiting)

end Sys2Proof.Machine
end

section
/-! SUPPORT. The answer to a REQUEST: a response accepted, rejected or damaged (R91 to R97, R103). -/

namespace Sys2Proof.Machine

/-! ### The engaged entry -/

/-- The engagement and its entry are the same in a state with the same device state, Engagement and table. -/
theorem Engaged.congr {s t : State} {g : Engagement} {j : Fin 64} {e : Entry} (h : Engaged s g j e)
    (device : t.device = s.device) (engagement : t.engagement = s.engagement) (table : t.table = s.table) :
    Engaged t g j e :=
  { opened := engagement.trans h.opened, index := h.index, entry := by rw [table, h.entry]
    device := by rw [device]; exact h.device }

/-- An engagement is open in RUN and DRAIN, not in STANDBY. -/
theorem Engaged.notStandby {s : State} {g : Engagement} {j : Fin 64} {e : Entry} (h : Engaged s g j e) :
    s.device ≠ .standby := by
  rcases h.device with hd | hd <;> simp [hd]

/-- A frame that ends damaged leaves every field but the segment receiver and the steps owed (R34, R35). -/
theorem EndsDamaged.fields {s s' : State} {c : Instr} {d : Damage} (h : EndsDamaged s c d s') :
    ∃ r o, s' = { s with segment := r, owed := o } := by
  rcases h with ⟨f, v, _, _, rfl⟩ | ⟨f, _, _, _, _, _, _, _, rfl⟩
  · exact ⟨s.frameOver.segment, s.frameOver.owed, rfl⟩
  · exact ⟨_, s.owed, rfl⟩

/-- A frame that ends in RECEIVING answers the request (R90, R91, R92). -/
theorem Engaged.engineFrame_receiving {s : State} {g : Engagement} {j : Fin 64} {e : Entry} (h : Engaged s g j e)
    (hs : g.state = .receiving) (x : Ended) : s.engineFrame x = s.judgeResponse g x := by
  simp only [State.engineFrame, if_neg h.notStandby, h.opened, hs]

/-- A frame that ends in HOLDING is sorted (R111). -/
theorem Engaged.engineFrame_holding {s : State} {g : Engagement} {j : Fin 64} {e : Entry} (h : Engaged s g j e)
    (hs : g.state = .holding) (x : Ended) : s.engineFrame x = s.judgeHolding g x := by
  simp only [State.engineFrame, if_neg h.notStandby, h.opened, hs]

/-! ### Closing to IDLE -/

/-- A failure charged with its event, and the close of the exchange, in one piece (R97). -/
theorem Engaged.charge_close {s : State} {g : Engagement} {j : Fin 64} {e : Entry} (h : Engaged s g j e)
    (count : Statistics → Statistics) (k : OutcomeKind) (own : EventKind) (d : Half) (answer : UpFrame) :
    (s.charge g count k (some own) d).closeRequest g answer = s.closing j (e.failed s.policy count k)
      (s.eventNow own (some j) (some g.outer) d :: e.strikeRecords s j g.outer) answer (s.closedNow j g.inner) := by
  rw [State.charge_eq h.index h.entry]
  exact State.closeRequest_eq h.works h.opened h.index _ _ _

/-- The answer admitted and the move to IDLE with the Last-Closed record as it was, in one piece (R117). -/
theorem Engaged.admit_idle {s : State} {g : Engagement} {j : Fin 64} {e : Entry} (h : Engaged s g j e) (e' : Entry)
    (l : List EventRecord) (answer : UpFrame) :
    (State.admitExchange { s with table := s.table.set j.val (some e'), events := s.events.postAll l }
      answer).moveToIdle = s.closing j e' l answer s.lastClosed := by
  rw [State.admitExchange_eq
    (s := { s with table := s.table.set j.val (some e'), events := s.events.postAll l }) h.works]
  refine (State.moveToIdle_eq (e := e') (g := g) (j := j) (by exact h.opened) h.index ?_).trans ?_
  · show Vector.get (s.table.set j.val (some e')) j = some e'
    rw [Table.get_set, if_pos rfl]
  · simp only [State.closing, State.answering, EventQueue.postAll, Vector.set_set]
    rfl

/-- An accepted answer as the entry records it (R95, R99, R117, R118). -/
theorem Entry.answered_eq (e : Entry) (probe : Bool) : e.answered probe = { e with
    statistics := { e.statistics with exchanges := satInc e.statistics.exchanges }
    strikes := 0
    status := if probe = true ∧ e.status = .barred then .enabled else e.status
    outcomes := e.outcomes ||| 0x01
    lastOutcome := some .answered } := by
  simp [Entry.answered, Entry.record, Statistics.addExchange, OutcomeKind.bit]

/-- An accepted answer credited to the engaged entry, in one piece (R95, R99, R117, R118). -/
theorem Engaged.creditAnswer_eq {s : State} {g : Engagement} {j : Fin 64} {e : Entry} (h : Engaged s g j e)
    (turnaround : Option Nat) : s.creditAnswer g turnaround =
      { s with
        table := s.table.set j.val (some (Entry.answered
          (turnaround.elim e fun v => { e with turnarounds := e.turnarounds.update (BitVec.ofNat 16 v) }) g.probe))
        events := s.events.postAll (if g.probe = true ∧ e.status = .barred then
          [s.eventNow .released (some j) (some g.outer) 1] else []) } := by
  have entry : s.entryAt g.index = some e := by rw [h.index]; exact h.entry
  have record (t : State) : t.ifRecord (e.probeReleases g.probe) j g.outer releasedByProbe =
      if g.probe = true ∧ e.status = .barred then [t.eventNow .released (some j) (some g.outer) 1] else [] := by
    simp only [Entry.probeReleases, Bool.and_eq_true, decide_eq_true_eq]
    split <;> rfl
  cases turnaround <;>
    · simp only [State.creditAnswer, h.index, h.index ▸ entry, Engagement.eventOuter_some h.index]
      refine (State.postIf_eq _ _ j g.outer releasedByProbe).trans ?_
      rw [record]
      rfl

/-! ### The response -/

/-- Settles O22: none of the four tests of R92 fails, and the close is that of an accepted answer. -/
theorem responseAccepted : Obligations.ResponseAccepted := by
  intro s f v m g j e ends engaged hs src dest code fits released e'
  have h : Engaged s.frameOver g j e := engaged.congr rfl rfl rfl
  have entry : s.frameOver.entryAt g.index = some e := by rw [h.index]; exact h.entry
  have passes : rejection g e.config.maxResponse m = none := by
    simp [rejection, src, dest, code, UpKind.code, Nat.not_lt.mpr fits]
  rw [ends.exec_segmentFrameEnd, h.engineFrame_receiving hs]
  simp only [State.judgeResponse, entry, Option.elim_some, passes, State.closeAnswered, h.creditAnswer_eq,
    Entry.answered_eq]
  exact congrArg _ (State.closeRequest_eq h.works h.opened h.index _ _ _)

/-- The first test of R92 that fails, with its code and the detail of the SUBSTITUTE (R96). -/
theorem rejection_some {g : Engagement} {max : Byte} {m : Frame} {reason : Byte} {detail : Half}
    (h : (m.src ≠ g.inner ∨ m.dest ≠ 0xFF) ∧ reason = 13 ∧ detail = half m.src m.dest ∨
      (m.src = g.inner ∧ m.dest = 0xFF) ∧ m.code ≠ 1 ∧ reason = 14 ∧ detail = m.code.setWidth 16 ∨
      (m.src = g.inner ∧ m.dest = 0xFF) ∧ m.code = 1 ∧ max.toNat < m.payload.length ∧ reason = 15 ∧
        detail = BitVec.ofNat 16 m.payload.length) :
    ∃ r, rejection g max m = some r ∧ r.code = reason ∧ rejectionDetail r m = detail := by
  rcases h with ⟨other, rfl, rfl⟩ | ⟨⟨src, dest⟩, code, rfl, rfl⟩ | ⟨⟨src, dest⟩, code, long, rfl, rfl⟩
  · refine ⟨.wrongSource, ?_, rfl, rfl⟩
    by_cases src : m.src = g.inner
    · rw [rejection, if_neg (not_not.mpr src), if_pos (other.resolve_left (not_not.mpr src))]
    · rw [rejection, if_pos src]
  · refine ⟨.wrongKind, ?_, rfl, rfl⟩
    rw [rejection, if_neg (not_not.mpr src), if_neg (not_not.mpr dest), if_pos (by exact code)]
  · exact ⟨.overlong, by simp [rejection, src, dest, code, UpKind.code, long], rfl, rfl⟩

/-- Settles O23: the failure is charged, and the mode of the policy gives the answer. -/
theorem responseRejected : Obligations.ResponseRejected := by
  intro s f v m g j e reason detail ends engaged hs fails observed
  obtain ⟨r, rejected, rfl, rfl⟩ := rejection_some fails
  have h : Engaged s.frameOver g j e := engaged.congr rfl rfl rfl
  have entry : s.frameOver.entryAt g.index = some e := by rw [h.index]; exact h.entry
  rw [ends.exec_segmentFrameEnd, h.engineFrame_receiving hs]
  simp only [State.judgeResponse, entry, Option.elim_some, rejected, State.closeRejected, State.frameOver_policy,
    observed]
  cases s.policy.mode with
  | enforce => exact congrArg _ (h.charge_close _ _ _ _ _)
  | observe => exact congrArg _ (h.charge_close _ _ _ _ _)

/-- Settles O24: the frame ends damaged, the exchange closes, and a head character then finds it IDLE. -/
theorem responseDamaged : Obligations.ResponseDamaged := by
  intro s g j e engaged hs closed
  have closes {s' : State} (h : Engaged s' g j e) (d : Damage) : s'.engineFrame (.damaged d) = s'.closing j
      (e.failed s'.policy Statistics.addDamaged .damaged)
      (s'.eventNow .damaged (some j) (some g.outer) (codeDetail d.code) :: e.strikeRecords s' j g.outer)
      (substituteOf g.outer 12 (codeDetail d.code)) (s'.closedNow j g.inner) := by
    rw [h.engineFrame_receiving hs]
    exact h.charge_close _ _ _ _ _
  refine ⟨fun c d s' ends => ?_, fun f v hw free hf => ?_⟩
  · rw [ends.exec]
    obtain ⟨r, o, rfl⟩ := ends.fields
    rw [closes (s' := { s with segment := r, owed := o }) (engaged.congr rfl rfl rfl)]
    rfl
  · rw [exec_headArrival_inFrame hw free hf, closes (s' := s.frameOver) (engaged.congr rfl rfl rfl)]
    exact congrArg _ (State.engineHead_ignored (.inr nofun))

end Sys2Proof.Machine
end

section
/-! SUPPORT. Frames of no engagement, and what the holder of a token sends (R104, R105, R111 to R120). -/

namespace Sys2Proof.Machine

/-! ### Frames of no engagement -/

/-- In STANDBY every ended frame is discarded (R60). -/
theorem State.engineFrame_standby {s : State} (h : s.device = .standby) (x : Ended) : s.engineFrame x = s := by
  simp only [State.engineFrame, if_pos h]

/-- A damaged frame of no engagement leaves no trace (R105). -/
theorem State.engineFrame_idle_damaged {s : State} (h : s.engagement = none) (d : Damage) :
    s.engineFrame (.damaged d) = s := by
  simp only [State.engineFrame, h, ite_self]

/-- An intact frame in IDLE is judged by the Last-Closed record (R104, R105). -/
theorem State.engineFrame_idle_intact {s : State} (hd : s.device ≠ .standby) (h : s.engagement = none) (m : Frame) :
    s.engineFrame (.intact m) = s.judgeIdle m := by
  simp only [State.engineFrame, if_neg hd, h]

/-- STRAY in one piece. -/
theorem State.stray_eq (s : State) (m : Frame) :
    s.stray m = s.posting [s.eventNow .stray none none (codeDetail m.src)] :=
  State.post_eq s _ _ _ _

/-- In SENDING and SETTLING an intact frame is STRAY, and a damaged one leaves no trace (R87, R102). -/
theorem State.engineFrame_elsewhere {s : State} {g : Engagement} (hd : s.device ≠ .standby)
    (hg : s.engagement = some g) (hs : g.state = .sending ∨ ∃ b, g.state = .settling b) :
    (∀ d, s.engineFrame (.damaged d) = s) ∧
      ∀ m, s.engineFrame (.intact m) = s.posting [s.eventNow .stray none none (codeDetail m.src)] := by
  simp only [← State.stray_eq]
  rcases hs with hs | ⟨b, hs⟩ <;> simp [State.engineFrame, hd, hg, hs]

/-- Without a match in the Last-Closed record a frame is STRAY (R105). -/
theorem State.judgeIdle_stray {s : State} {m : Frame}
    (h : ∀ c, s.lastClosed = some c → ¬ (m.code = 1 ∧ m.src = c.inner)) :
    s.judgeIdle m = s.posting [s.eventNow .stray none none (codeDetail m.src)] := by
  rw [← State.stray_eq]
  unfold State.judgeIdle
  split
  · rfl
  · next c hc => exact if_neg (h c hc)

/-- A RESPONSE from the recorded inner address is LATE: posted, and counted where the entry still has that address
(R104). -/
theorem State.judgeIdle_late {s : State} {m : Frame} {c : LastClosed} (hc : s.lastClosed = some c) (code : m.code = 1)
    (src : m.src = c.inner) :
    let late := s.posting [s.eventNow .late (some c.index) ((s.lateEntry c).map fun e => e.config.outer)
      (lateDetail s.clock c.time)]
    (s.lateEntry c = none → s.judgeIdle m = late) ∧
      ∀ e, s.lateEntry c = some e → s.judgeIdle m = late.modifyEntry (some c.index) fun e =>
        { e with statistics := e.statistics.addLate }.record .late := by
  have matches' : m.code = UpKind.response.code ∧ m.src = c.inner := ⟨code, src⟩
  simp only [State.judgeIdle, hc, if_pos matches', State.post_eq]
  exact ⟨fun h => by simp only [h], fun e h => by simp only [h]⟩

/-- The entry a late frame is counted on (R12, R104). -/
theorem State.lateEntry_some {s : State} {c : LastClosed} {e : Entry} (he : s.table.get c.index = some e)
    (inner : e.config.inner = c.inner) : s.lateEntry c = some e := by
  simp only [State.lateEntry, he, if_pos inner]

/-- A recorded entry that is gone, or has another address now, counts nothing (R104). -/
theorem State.lateEntry_none {s : State} {c : LastClosed}
    (h : ∀ e, s.table.get c.index = some e → e.config.inner ≠ c.inner) : s.lateEntry c = none := by
  unfold State.lateEntry
  split
  · rfl
  · next e he => exact if_neg (h e he)

/-- Settles O25: the engine's reading of an ended frame, device state by device state. -/
theorem framesOfNoEngagement : Obligations.FramesOfNoEngagement := by
  refine ⟨fun s device idle => ?_, fun s => ⟨fun standby => ?_, fun g device opened elsewhere => ?_⟩⟩
  · have awake : s.device ≠ .standby := by rcases device with h | h <;> simp [h]
    have judged {f : OpenFrame} {v : Byte} {m : Frame} (ends : SegmentEnds s f v (.intact m)) :
        exec (.segmentFrameEnd v) s = .next (s.frameOver.judgeIdle m) := by
      rw [ends.exec_segmentFrameEnd, State.engineFrame_idle_intact (s := s.frameOver) awake idle]
    refine ⟨fun c d s' ends => ?_, fun f v m ends => ⟨fun other => ?_, fun c closed code src => ⟨?_, ?_⟩⟩⟩
    · rw [ends.exec]
      obtain ⟨r, o, rfl⟩ := ends.fields
      exact congrArg _ (State.engineFrame_idle_damaged (s := { s with segment := r, owed := o }) idle d)
    · rw [judged ends, State.judgeIdle_stray (s := s.frameOver) other]
      rfl
    · intro e entry inner
      have found : s.frameOver.lateEntry c = some e := State.lateEntry_some (s := s.frameOver) entry inner
      rw [judged ends, (State.judgeIdle_late (s := s.frameOver) closed code src).2 e found, found,
        State.modifyEntry_eq (s := s.frameOver.posting _) (by exact entry)]
      rfl
    · intro other
      have gone : s.frameOver.lateEntry c = none := State.lateEntry_none (s := s.frameOver) other
      rw [judged ends, (State.judgeIdle_late (s := s.frameOver) closed code src).1 gone, gone]
      rfl
  · refine ⟨fun c d s' ends => ?_, fun f v m ends => ?_⟩
    · rw [ends.exec]
      obtain ⟨r, o, rfl⟩ := ends.fields
      exact congrArg _ (State.engineFrame_standby (s := { s with segment := r, owed := o }) standby _)
    · rw [ends.exec_segmentFrameEnd, State.engineFrame_standby (s := s.frameOver) standby]
  · have awake : s.device ≠ .standby := by rcases device with h | h <;> simp [h]
    refine ⟨fun c d s' ends => ?_, fun f v m ends => ?_⟩
    · rw [ends.exec]
      obtain ⟨r, o, rfl⟩ := ends.fields
      exact congrArg _
        ((State.engineFrame_elsewhere (s := { s with segment := r, owed := o }) awake opened elsewhere).1 d)
    · rw [ends.exec_segmentFrameEnd, (State.engineFrame_elsewhere (s := s.frameOver) awake opened elsewhere).2]
      rfl

/-! ### The holder's RETURN -/

/-- Settles O26: the answer is credited, and the Engagement moves to IDLE with its RETURN admitted. -/
theorem holderReturn : Obligations.HolderReturn := by
  intro s f v m g j e ends engaged hs src code released e'
  have h : Engaged s.frameOver g j e := engaged.congr rfl rfl rfl
  have judged : s.frameOver.judgeHolding g (.intact m) = s.frameOver.holderReturn g := by
    simp [State.judgeHolding, src, code, UpKind.code]
  rw [ends.exec_segmentFrameEnd, h.engineFrame_holding hs, judged, State.holderReturn, h.creditAnswer_eq none,
    Option.elim_none, Entry.answered_eq, h.admit_idle]
  rfl

/-! ### The holder's PUBLISH -/

/-- The divider count as the statements write its advance (R10, R113). -/
theorem Entry.advanceDivider_eq {e : Entry} (below : e.dividerCount < e.config.publishDivider.toNat) :
    e.advanceDivider = { e with
      dividerCount := if e.dividerCount + 1 = e.config.publishDivider.toNat then 0 else e.dividerCount + 1 } := by
  have last : e.config.publishDivider.toNat ≤ e.dividerCount + 1 ↔
      e.dividerCount + 1 = e.config.publishDivider.toNat := by omega
  simp only [Entry.advanceDivider, last]

/-- The entry just written is read back. -/
theorem Table.get_set_self (t : Table) (i : Fin 64) (e : Option Entry) : Vector.get (t.set i.val e) i = e := by
  rw [Table.get_set, if_pos rfl]

/-- The engaged entry changed in place. -/
theorem Engagement.modifyEntry_eq {s : State} {g : Engagement} {j : Fin 64} {e : Entry} (index : g.index = some j)
    (entry : s.table.get j = some e) (f : Entry → Entry) :
    s.modifyEntry g.index f = { s with table := s.table.set j.val (some (f e)) } := by
  rw [index, State.modifyEntry_eq entry]

/-- The engaged entry changed twice. -/
theorem Engagement.modifyEntry_twice {s : State} {g : Engagement} {j : Fin 64} {e : Entry} (index : g.index = some j)
    (entry : s.table.get j = some e) (first second : Entry → Entry) :
    (s.modifyEntry g.index first).modifyEntry g.index second =
      { s with table := s.table.set j.val (some (second (first e))) } := by
  rw [Engagement.modifyEntry_eq index entry, Engagement.modifyEntry_eq index (Table.get_set_self ..), Table.set_set]

/-- A publication while the divider count is above 0 is thinned (R113). -/
theorem Engaged.holderPublish_thinned {s : State} {g : Engagement} {j : Fin 64} {e : Entry} (h : Engaged s g j e)
    (count : e.dividerCount ≠ 0) (m : Frame) :
    s.holderPublish g m = { s with
      engagement := some { g with seen := g.seen.map satInc }
      table := s.table.set j.val
        (some { e.advanceDivider with statistics := e.statistics.addThinned }) } := by
  have entry : State.entryAt { s with engagement := some { g with seen := g.seen.map satInc } } g.index = some e := by
    rw [h.index]
    exact h.entry
  simp only [State.holderPublish, entry, if_neg count]
  exact Engagement.modifyEntry_twice h.index (by exact h.entry) _ _

/-- A publication at divider count 0 is offered, with the divider count advanced (R113). -/
theorem Engaged.holderPublish_offered {s : State} {g : Engagement} {j : Fin 64} {e : Entry} (h : Engaged s g j e)
    (count : e.dividerCount = 0) (m : Frame) :
    s.holderPublish g m = State.offerPublication { s with
      engagement := some { g with seen := g.seen.map satInc }
      table := s.table.set j.val (some e.advanceDivider) } g m := by
  have entry : State.entryAt { s with engagement := some { g with seen := g.seen.map satInc } } g.index = some e := by
    rw [h.index]
    exact h.entry
  simp only [State.holderPublish, entry, if_pos count]
  exact congrArg (State.offerPublication · g m) (Engagement.modifyEntry_eq h.index (by exact h.entry) _)

/-- An offer whose DEST no entry has is a PUBLISH_BAD_DEST (R114). -/
theorem State.offerPublication_none {s : State} {g : Engagement} {j : Fin 64} {m : Frame} (index : g.index = some j)
    (h : translateDest s.table m.dest = none) :
    s.offerPublication g m = s.posting [s.eventNow .publishBadDest (some j) (some g.outer) (codeDetail m.dest)] := by
  simp only [State.offerPublication, h, index, Engagement.eventOuter_some index, State.post_eq]

/-- An offer with a translated DEST is admitted where the total with it is 6 or less, and dropped otherwise (R115,
R137). -/
theorem State.offerPublication_some {s : State} {g : Engagement} {j : Fin 64} {a : Entry} {m : Frame} {dest : Byte}
    (works : s.works = true) (index : g.index = some j) (entry : s.table.get j = some a)
    (h : translateDest s.table m.dest = some dest) :
    s.offerPublication g m = if s.up.total + 1 ≤ 6 then
        { s with
          table := s.table.set j.val (some { a with statistics := a.statistics.addPublished })
          up := { s.up with frames := s.up.frames ++ [publishFrame dest g.outer m.payload] }
          uplinkTransmitter := uplinkAfter s.uplinkTransmitter
            (s.up.frames ++ [publishFrame dest g.outer m.payload]) s.events }
      else s.posting [s.eventNow .publishDropped (some j) (some g.outer) 0] := by
  simp only [State.offerPublication, h, index, Engagement.eventOuter_some index, State.post_eq, State.publicationFits,
    decide_eq_true_eq]
  refine ite_congr rfl (fun _ => ?_) (fun _ => rfl)
  rw [State.modifyEntry_eq entry]
  exact State.enqueue_eq _ (by exact works) _

/-- DEST 255 is not translated (R114). -/
theorem translateDest_broadcast (t : Table) : translateDest t 0xFF = some 0xFF := if_pos rfl

/-- The inner address of an entry is translated to its outer address (R114). -/
theorem TableSound.translateDest_some {s : State} (h : TableSound s) {i : Fin 64} {d : Entry}
    (hd : s.table.get i = some d) : translateDest s.table d.config.inner = some d.config.outer := by
  have found : findInner s.table d.config.inner = some i := (h.findInner_iff _ _).mpr ⟨d, hd, rfl⟩
  have ordinary : d.config.inner ≠ 0xFF := by
    have := (h.entries i d hd).config.inner
    intro all
    rw [all] at this
    exact absurd this (by decide)
  simp only [translateDest, if_neg ordinary, found, hd]

/-- An address that no entry has is not translated (R114). -/
theorem TableSound.translateDest_none {s : State} (h : TableSound s) {a : Byte} (ordinary : a ≠ 0xFF)
    (unknown : ∀ i d, s.table.get i = some d → d.config.inner ≠ a) : translateDest s.table a = none := by
  have missing : findInner s.table a = none := by
    refine Option.eq_none_iff_forall_ne_some.mpr fun i found => ?_
    obtain ⟨d, hd, inner⟩ := (h.findInner_iff a i).mp found
    exact unknown i d hd inner
  simp only [translateDest, if_neg ordinary, missing]

/-- Settles O27: thinned, or offered with its DEST as the table before the advance of the divider translates it. -/
theorem holderPublish : Obligations.HolderPublish := by
  intro s f v m g j e sound ends engaged hs src code token advanced seen with' counted admitted dropped
  have h : Engaged s.frameOver g j e := engaged.congr rfl rfl rfl
  have judged : exec (.segmentFrameEnd v) s = .next (s.frameOver.holderPublish g m) := by
    rw [ends.exec_segmentFrameEnd, h.engineFrame_holding hs]
    simp [State.judgeHolding, src, code, UpKind.code]
  have divider : e.dividerCount < e.config.publishDivider.toNat := by
    simpa [token] using (sound.entries j e engaged.entry).divider
  have advance : e.advanceDivider = advanced := Entry.advanceDivider_eq divider
  refine ⟨fun above => ?_, fun zero => ?_⟩
  · rw [judged, h.holderPublish_thinned (Nat.pos_iff_ne_zero.mp above), advance]
    rfl
  have offered : exec (.segmentFrameEnd v) s = .next ((with' advanced).offerPublication g m) := by
    rw [judged, h.holderPublish_offered zero, advance]
    rfl
  have same : translateDest (with' advanced).table m.dest = translateDest s.table m.dest :=
    translateDest_congr (a := advanced) engaged.entry rfl m.dest
  have works : (with' advanced).works = true := engaged.works
  have taken {dest : Byte} (ht : translateDest s.table m.dest = some dest) :
      exec (.segmentFrameEnd v) s = .next (if s.up.total + 1 ≤ 6 then admitted dest else dropped) := by
    rw [offered, State.offerPublication_some works h.index (Table.get_set_self ..) (same.trans ht), Table.set_set]
    rfl
  refine ⟨fun all => ?_, fun i d hd inner => ?_, fun ordinary unknown => ?_⟩
  · exact taken (by rw [all]; exact translateDest_broadcast _)
  · exact taken (by rw [← inner]; exact sound.translateDest_some hd)
  · rw [offered, State.offerPublication_none h.index (same.trans (sound.translateDest_none ordinary unknown))]
    rfl

/-! ### The holder's faults -/

/-- A failure charged in HOLDING with its event, in one piece (R119, R120). -/
theorem Engaged.charge_posting {s : State} {g : Engagement} {j : Fin 64} {e : Entry} (h : Engaged s g j e)
    (count : Statistics → Statistics) (k : OutcomeKind) (own : EventKind) (d : Half) :
    s.charge g count k (some own) d =
      ({ s with table := s.table.set j.val (some (e.failed s.policy count k)) } : State).posting
        (s.eventNow own (some j) (some g.outer) d :: e.strikeRecords s j g.outer) :=
  State.charge_eq h.index h.entry _ _ _ _

/-- Settles O28: by the sort of the frame in HOLDING. -/
theorem holderFaults : Obligations.HolderFaults := by
  intro s g j e engaged hs
  have h : Engaged s.frameOver g j e := engaged.congr rfl rfl rfl
  refine ⟨fun f v m ends src => ?_, fun f v m ends src publish returned => ?_, fun c d s' ends => ?_⟩
  · rw [ends.exec_segmentFrameEnd, h.engineFrame_holding hs, State.judgeHolding, if_pos src, State.stray_eq]
    rfl
  · rw [ends.exec_segmentFrameEnd, h.engineFrame_holding hs, State.judgeHolding, if_neg (not_not.mpr src),
      if_neg (by exact publish), if_neg (by exact returned), State.holderWrongKind, h.charge_posting]
    rfl
  · rw [ends.exec]
    obtain ⟨r, o, rfl⟩ := ends.fields
    have held : Engaged { s with segment := r, owed := o } g j e := engaged.congr rfl rfl rfl
    rw [held.engineFrame_holding hs, State.judgeHolding, State.holderDamaged, held.charge_posting]
    rfl

end Sys2Proof.Machine
end

section
/-! SUPPORT. Jabber, the quiet line, the echo comparator and the abort procedure (R47 to R57, R84, R85, R100, R125). -/

namespace Sys2Proof.Machine

/-! ### SETTLING, in pieces -/

/-- An answer given in place of a frame leaves the engagement open (R85, R86). -/
theorem State.givingUp_engagement (t : State) (g : Engagement) (l : List EventRecord) (r : Byte) (d : Half) :
    (t.givingUp g l r d).engagement = t.engagement := by
  unfold State.givingUp
  split <;> rfl

/-- A record posted, an answer given where one is owed, and the entry into SETTLING (R85, R86, R102). -/
theorem State.giveUp_eq {t : State} (hw : t.works = true) {g : Engagement} (hg : t.engagement = some g) (k : EventKind)
    (position : Half) (r : Reason) (b : Bool) :
    (((t.post k g.index g.eventOuter position).answerIfOwed g (substitute g.outer r position)).enterSettling b) =
      State.settlingFrom (t.givingUp g [t.eventNow k g.index (g.index.map fun _ => g.outer) position] r.code position)
        g b := by
  rw [State.post_eq, Engagement.eventOuter_eq, State.givingUp_eq t hw g _ r position]
  exact State.enterSettling_eq ((State.givingUp_engagement ..).trans hg) b

/-! ### Jabber -/

/-- The entry into MUTED in one piece, but for the engine's answer to its report (R49). -/
theorem State.enterMuted_eq (s : State) : s.enterMuted = ((s.cutOff .muted).posting
    [s.eventNow .jabber s.engagedIndex (s.engagement.bind Engagement.eventOuter) 0]).engineMuted
      s.segment.state.mutedFrame := by
  simp only [State.enterMuted, State.muted_cutOff, State.post_eq]
  rfl

/-- The entry into MUTED while the Engagement is IDLE (R49, R60, R105). -/
theorem State.enterMuted_idle {s : State} (idle : s.engagement = none) :
    s.enterMuted = (s.cutOff .muted).posting [s.eventNow .jabber none none 0] := by
  have quiet (t : State) (h : t.engagement = none) (d : Option Damage) : t.engineMuted d = t := by
    simp only [State.engineMuted, h, ite_self]
  have index : s.engagedIndex = none := by simp only [State.engagedIndex, idle]
  rw [State.enterMuted_eq, quiet _ (by exact idle), index, idle]
  rfl

/-- JABBER where its occasion holds (R49). -/
theorem exec_jabber {s : State} (hw : s.works = true) (free : s.transmitter.holdsLine = false)
    (listens : s.segment.state ≠ .muted) (passed : s.policy.jabberLimit.toNat ≤ s.segment.activity) :
    exec .jabber s = .next s.enterMuted := by
  have due : s.jabberDue = true := by
    simp [State.jabberDue, State.segmentFrames_true hw free listens, passed]
  show Host.Outcome.next s.takeJabber = _
  rw [State.takeJabber, if_pos due]

/-- The report of MUTED closes an exchange as JABBER (R100). -/
theorem Engaged.closeJabber_eq {s : State} {g : Engagement} {j : Fin 64} {e : Entry} (h : Engaged s g j e)
    (d : Option Damage) : s.closeJabber g d = State.settlingFrom
      (({ s with table := s.table.set j.val (some (e.failed s.policy Statistics.addDamaged .jabber)) } :
        State).answering (e.strikeRecords s j g.outer) (substituteOf g.outer 16 (jabberDetail g.state d))) g true := by
  rw [State.closeJabber, State.charge_answer h.works h.index h.entry]
  exact State.enterSettling_eq (by exact h.opened) true

/-- The report of MUTED reclaims the line from a holder (R125). -/
theorem Engaged.reclaimJabber_eq {s : State} {g : Engagement} {j : Fin 64} {e : Entry} (h : Engaged s g j e) :
    s.reclaimJabber g = State.settlingFrom
      (({ s with table := s.table.set j.val (some (e.failed s.policy Statistics.addReclaims .jabber)) } :
        State).answering (e.strikeRecords s j g.outer) (returnOf g.outer true s.token)) g false := by
  rw [State.reclaimJabber, State.charge_answer h.works h.index h.entry]
  exact State.enterSettling_eq (by exact h.opened) false

/-- The report of MUTED reaches an exchange in AWAITING or RECEIVING (R100). -/
theorem Engaged.engineMuted_exchange {s : State} {g : Engagement} {j : Fin 64} {e : Entry} (h : Engaged s g j e)
    (hs : g.state = .awaiting ∨ g.state = .receiving) (d : Option Damage) : s.engineMuted d = s.closeJabber g d := by
  rcases hs with hs | hs <;> simp only [State.engineMuted, if_neg h.notStandby, h.opened, hs]

/-- The report of MUTED reaches a holder (R125). -/
theorem Engaged.engineMuted_holding {s : State} {g : Engagement} {j : Fin 64} {e : Entry} (h : Engaged s g j e)
    (hs : g.state = .holding) (d : Option Damage) : s.engineMuted d = s.reclaimJabber g := by
  simp only [State.engineMuted, if_neg h.notStandby, h.opened, hs]

/-- Settles O30: the receiver is muted and JABBER posted, and the report is judged state by state. -/
theorem jabberMutes : Obligations.JabberMutes := by
  intro s hw free listens passed muted
  rw [exec_jabber hw free listens passed]
  refine ⟨fun idle => by rw [State.enterMuted_idle idle], fun g device opened => ?_⟩
  have awake : s.device ≠ .standby := by rcases device with h | h <;> simp [h]
  have index : s.engagedIndex = g.index := by simp only [State.engagedIndex, opened]
  have outer : s.engagement.bind Engagement.eventOuter = g.index.map fun _ => g.outer := by
    rw [opened]
    exact g.eventOuter_eq
  rw [State.enterMuted_eq, index, outer]
  refine ⟨fun elsewhere => ?_, fun j e hj he => ?_⟩
  · have unmoved (t : State) (device : t.device ≠ .standby) (h : t.engagement = some g) (d : Option Damage) :
        t.engineMuted d = t := by
      rcases elsewhere with hs | ⟨b, hs⟩ <;> simp only [State.engineMuted, if_neg device, h, hs]
    exact congrArg _ (unmoved _ (by exact awake) (by exact opened) _)
  · intro jabber closed
    rw [hj]
    have h : Engaged (muted.posting [jabber]) g j e := ⟨opened, hj, he, device⟩
    refine ⟨fun awaiting => ?_, fun f receiving open' => ?_, fun holding => ?_⟩
    · refine congrArg _ ((h.engineMuted_exchange (.inl awaiting) _).trans ?_)
      rw [h.closeJabber_eq, awaiting]
      rfl
    · refine congrArg _ ((h.engineMuted_exchange (.inr receiving) _).trans ?_)
      rw [h.closeJabber_eq, receiving, open']
      rfl
    · refine congrArg _ ((h.engineMuted_holding holding _).trans ?_)
      rw [h.reclaimJabber_eq]
      rfl

/-! ### The quiet line -/

/-- A transmitter that is not in GAP_WAIT begins nothing (R52). -/
theorem State.startIfReady_none {s : State} (h : ∀ f, s.transmitter ≠ .gapWait f) : s.startIfReady = s := by
  unfold State.startIfReady
  split
  · next f hf => exact absurd hf (h f)
  · rfl

/-- The end of a muted spell (R50). -/
theorem ReceiverState.unmute_eq (r : ReceiverState) : r.unmute = if r = .muted then .lineIdle else r := by
  cases r <;> rfl

/-- The line-quiet event has no effect outside SETTLING, and in STANDBY (R60, R102). -/
theorem State.engineQuiet_ignored {s : State}
    (h : s.device = .standby ∨ ∀ g, s.engagement = some g → ∀ b, g.state ≠ .settling b) : s.engineQuiet = s := by
  unfold State.engineQuiet
  split
  · rfl
  · next awake =>
    split
    · rfl
    · next g hg =>
      split
      · next b hb => exact absurd hb (h.resolve_left awake g hg b)
      · rfl

/-- The line-quiet event ends SETTLING (R102). -/
theorem State.engineQuiet_settling {s : State} {g : Engagement} {b : Bool}
    (device : s.device = .run ∨ s.device = .drain) (hg : s.engagement = some g) (hs : g.state = .settling b) :
    s.engineQuiet = s.settled g b := by
  have awake : s.device ≠ .standby := by rcases device with h | h <;> simp [h]
  have same : s.engagement = some { g with state := .settling b } := by rw [hg, ← hs]
  simp only [State.engineQuiet, if_neg awake, hg, hs]
  exact State.endSettling_eq same s.engagement

/-- Settles O31: the counter steps to the gap time, then the engine and the transmitter are told. -/
theorem lineQuietActs : Obligations.LineQuietActs := by
  intro s hw mid drives short quiet
  have due : s.quietDue = true := by
    have free : s.transmitter.drives = false := drives
    simp [State.quietDue, hw, mid, free, short]
  have acts : exec .lineQuiet s = .next quiet.engineQuiet.startIfReady := by
    show Host.Outcome.next s.takeQuiet = _
    rw [State.takeQuiet, if_pos due, State.becomeQuiet, ReceiverState.unmute_eq]
  refine ⟨fun noWait => ⟨fun elsewhere => ?_, fun g b device hg hs => ?_⟩, fun f wait device elsewhere => ?_⟩
  · rw [acts, State.engineQuiet_ignored (s := quiet) elsewhere, State.startIfReady_none (s := quiet) noWait]
  · rw [acts, State.engineQuiet_settling (s := quiet) device hg hs, State.startIfReady_none]
    rw [State.settled_transmitter]
    exact noWait
  · have ready : quiet.lineQuiet = true ∧ quiet.maySend = true :=
      ⟨decide_eq_true le_rfl, by rcases device with h | h <;> simp [State.maySend, quiet, h]⟩
    have waits : quiet.transmitter = .gapWait f := wait
    rw [acts, State.engineQuiet_ignored (s := quiet) (.inr elsewhere)]
    simp only [State.startIfReady, waits, ready.1, ready.2, Bool.and_self, if_true]

/-! ### The echo comparator -/

/-- A character taken in ON_LINE is compared (R26, R54). -/
theorem exec_character_onLine {s : State} {f : LineFrame} {sent compared : Nat} (hw : s.works = true)
    (ht : s.transmitter = .onLine f sent compared) (c : LineChar) :
    exec (.characterTaken .segment (.character c)) s = .next (s.hearSegment.compareEcho c) := by
  have quiet : s.resumed = s := State.resumed_of_holdsLine (by rw [ht]; rfl)
  have transmitter : s.hearSegment.transmitter = .onLine f sent compared := ht
  rw [exec_character_segment]
  simp only [State.takeSegment, if_pos hw, State.resumeRun_eq, quiet, transmitter]

/-- The comparator while a character is held (R54). -/
theorem State.compareEcho_eq {s : State} {f : LineFrame} {sent compared : Nat} {x : LineChar}
    (ht : s.transmitter = .onLine f sent compared) (begun : compared ≤ sent) (hx : f.chars[compared]? = some x)
    (c : LineChar) : s.compareEcho c =
      if c = x then
        if compared + 1 = f.length then s.completeTransmission
        else { s with transmitter := .onLine f sent (compared + 1) }
      else s.faultEcho compared := by
  have held : s.transmitter.heldEcho = some x := by simp only [ht, SegmentTransmitter.heldEcho, if_pos begun, hx]
  have last : s.transmitter.lastEchoDue = decide (compared + 1 = f.length) := by
    simp only [ht, SegmentTransmitter.lastEchoDue, decide_eq_true begun, Bool.and_true]
  unfold State.compareEcho
  rw [held, last, ht]
  refine ite_congr rfl (fun _ => ?_) (fun _ => rfl)
  by_cases h : compared + 1 = f.length
  · rw [if_pos h, if_pos (decide_eq_true h)]
  · rw [if_neg h, if_neg (by rw [decide_eq_true_eq]; exact h)]

/-- TRANSMISSION_COMPLETE where its occasion holds (R54, R84). -/
theorem exec_transmissionComplete {s : State} {f : LineFrame} {sent compared : Nat} (hw : s.works = true)
    (ht : s.transmitter = .onLine f sent compared) (begun : compared ≤ sent) (last : compared + 1 = f.length) :
    exec .transmissionComplete s = .next s.completeTransmission := by
  have due : (s.works && s.transmitter.lastEchoDue) = true := by
    rw [hw, ht, Bool.true_and]
    exact Bool.and_eq_true_iff.mpr ⟨decide_eq_true last, decide_eq_true begun⟩
  show execTransmissionComplete s = _
  rw [execTransmissionComplete, if_pos due]

/-- A SEND that is complete closes as if it had settled: its reservation is handed back (R84). -/
theorem State.engineComplete_send {s : State} {g : Engagement} (hg : s.engagement = some g) (hs : g.state = .sending)
    (hk : g.kind = .send) : s.engineComplete = s.settled g false := by
  have settles := State.endSettling_eq (s := { s with engagement := some { g with state := .settling false } }) (g := g)
    (b := false) rfl s.engagement
  have idle := State.moveToIdle_index s.releaseExchange (g1 := { g with state := .settling false }) (g2 := g) rfl
  have same : ({ s.releaseExchange with engagement := some g } : State) = s.releaseExchange := by
    rw [State.releaseExchange_eq, ← hg]
    rfl
  simp only [State.engineComplete, hg, hs, hk]
  refine Eq.trans ?_ settles
  rw [← same, ← idle]
  simp only [State.endSettling, hk, if_true, State.releaseExchange_eq]
  rfl

/-- Settles O32: the comparator, then the engine's step at the end of the frame. -/
theorem echoesComplete : Obligations.EchoesComplete := by
  intro s f sent compared c hw ht begun hc
  have compares : exec (.characterTaken .segment (.character c)) s = .next
      (if compared + 1 = f.length then s.hearSegment.completeTransmission
        else { s.hearSegment with transmitter := .onLine f sent (compared + 1) }) := by
    rw [exec_character_onLine hw ht, State.compareEcho_eq (s := s.hearSegment) ht begun hc, if_pos rfl]
  refine ⟨fun more => ?_, fun last => ⟨?_, ?_⟩⟩
  · rw [compares, if_neg (Nat.ne_of_lt more)]
    rfl
  · rw [compares, if_pos last, exec_transmissionComplete hw ht begun last]
    rfl
  · intro idle g hg hs
    have completes : exec .transmissionComplete s = .next idle.engineComplete :=
      exec_transmissionComplete hw ht begun last
    have opened : idle.engagement = some g := hg
    refine ⟨fun hk => ?_, fun hk => ?_, fun b hk hb => ?_⟩
    · rw [completes]
      simp only [State.engineComplete, opened, hs, hk]
    · rw [completes, State.engineComplete_send opened hs hk]
    · rw [completes]
      simp only [State.engineComplete, opened, hs, hk, hb, Option.getD_some]

/-! ### Echo faults -/

/-- An echo fault in SENDING in one piece (R55, R85). -/
theorem State.faultEcho_eq {s : State} {g : Engagement} (hw : s.works = true) (hg : s.engagement = some g)
    (hs : g.state = .sending) (position : Nat) :
    s.faultEcho position = State.settlingFrom
      ({ s with transmitter := s.transmitter.abort }.givingUp g
        [s.eventNow .echoFault g.index (g.index.map fun _ => g.outer) (BitVec.ofNat 16 position)] 9
        (BitVec.ofNat 16 position)) g false := by
  have faults : s.faultEcho position = (((State.post { s with transmitter := s.transmitter.abort } .echoFault g.index
      g.eventOuter (BitVec.ofNat 16 position)).answerIfOwed g
        (substitute g.outer .lineFault (BitVec.ofNat 16 position))).enterSettling false) := by
    simp only [State.faultEcho, State.engineEchoFault, hg, hs]
  rw [faults, State.giveUp_eq (t := { s with transmitter := s.transmitter.abort }) hw hg]
  rfl

/-- Settles O33: a wrong echo, by either command, and a missing one. -/
theorem echoFaultsAbort : Obligations.EchoFaultsAbort := by
  intro s f sent compared g hw ht hg hs position fault
  refine ⟨fun c x begun hx differs => ?_, fun missing => ?_⟩
  · intro heard
    have compares : s.hearSegment.compareEcho c = fault heard := by
      rw [State.compareEcho_eq (s := s.hearSegment) ht begun hx, if_neg differs,
        State.faultEcho_eq (s := s.hearSegment) hw hg hs]
      rfl
    refine ⟨by rw [exec_character_onLine hw ht, compares], ?_⟩
    have due : (s.works && s.echoDiffers c) = true := by
      simp [State.echoDiffers, SegmentTransmitter.heldEcho, hw, ht, begun, hx, differs]
    show execEchoFault (some c) s = _
    simp only [execEchoFault, if_pos due, compares]
  · have due : (s.works && s.transmitter.echoMissing) = true := by
      simp [SegmentTransmitter.echoMissing, hw, ht, missing]
    have place : s.transmitter.echoPosition = compared := by rw [ht]; rfl
    show Host.Outcome.next s.takeMissingEcho = _
    rw [State.takeMissingEcho, if_pos due, place, State.faultEcho_eq hw hg hs]

/-! ### The abort procedure -/

/-- The number of characters of a frame on the segment, LEN + 6 (R28, R53). -/
theorem LineFrame.chars_length (f : LineFrame) : f.chars.length = f.payload.length + 6 := frameChars_length _ _ _ _

/-- An abort order on a frame of which something is left to send (R56, R57). -/
theorem SegmentTransmitter.abort_onLine {f : LineFrame} {sent : Nat} {c : LineChar} (hc : f.chars[sent]? = some c)
    (compared : Nat) : (SegmentTransmitter.onLine f sent compared).abort =
      .aborting (if sent ≤ f.payload.length + 3 then
          [c, ⟨false, ~~~ highByte (crc (f.body.take (sent + 1)))⟩, ⟨false, ~~~ lowByte (crc (f.body.take (sent + 1)))⟩]
        else if sent = f.payload.length + 4 then [c, ⟨false, ~~~ lowByte (crc f.body)⟩]
        else [c]) none := by
  simp only [SegmentTransmitter.abort, beginAbort, abortTail, hc]
  split_ifs <;> rfl

/-- ABORT_END where its occasion holds: no frame begins on a line that is not quiet (R52, R56). -/
theorem exec_abortEnd {s : State} {left : List LineChar} {held : Option LineFrame} (one : left.length ≤ 1)
    (gap : 3 ≤ s.policy.gapTime.toNat) (ht : s.transmitter = .aborting left held) :
    exec .abortEnd s = .next { s with
      transmitter := s.transmitter.afterAbort
      segment := { s.segment with silence := 0, activity := 0 } } := by
  have due : s.transmitter.abortEnds = true := by simp [ht, SegmentTransmitter.abortEnds, one]
  have notQuiet (t : State) (policy : t.policy = s.policy) (silence : t.segment.silence = 0) : t.startIfReady = t := by
    have busy : t.lineQuiet = false := by
      simp only [State.lineQuiet, policy, silence, decide_eq_false_iff_not]
      omega
    unfold State.startIfReady
    split
    · rw [busy, Bool.false_and, if_neg Bool.false_ne_true]
    · rfl
  show Host.Outcome.next s.takeAbortEnd = _
  rw [State.takeAbortEnd, if_pos due]
  exact congrArg _ (notQuiet _ rfl rfl)

/-- Settles O34: the characters of a frame, what an abort order leaves of it, and the end of the procedure. -/
theorem abortProcedure : Obligations.AbortProcedure := by
  refine ⟨fun f fits => ⟨?_, f.chars_length, rfl, rfl, fun _ _ => rfl, fun sent compared c hc =>
    ⟨fun early => ?_, fun high => ?_, fun low => ?_⟩⟩, fun f sent compared sentAll => ?_,
    fun s left held one gap ht => ?_⟩
  · rfl
  · rw [SegmentTransmitter.abort_onLine hc, if_pos early]
  · rw [SegmentTransmitter.abort_onLine hc, if_neg (by omega), if_pos high]
  · rw [SegmentTransmitter.abort_onLine hc, if_neg (by omega), if_neg (by omega)]
  · have past : f.chars[sent]? = none := List.getElem?_eq_none (by rw [f.chars_length]; exact sentAll)
    simp only [SegmentTransmitter.abort, beginAbort, abortTail, past]
  · intro t
    have after : s.transmitter.afterAbort = t.transmitter := by
      cases held <;> rw [ht] <;> rfl
    refine ⟨by rw [State.sdrv, ht]; rfl, ?_, ?_⟩
    · cases held <;> rfl
    · rw [exec_abortEnd one gap ht, after]

end Sys2Proof.Machine
end

section
/-! SUPPORT. The reclaim of an expired token, and the end of an upstream frame (R44, R122, R123, R133, R134). -/

namespace Sys2Proof.Machine

/-! ### The token counter -/

/-- A truncation order changes nothing but the segment receiver (R51). -/
theorem State.truncated_fields (s : State) : ∃ r, s.truncated = { s with segment := r } := by
  unfold State.truncated
  split
  · exact ⟨_, rfl⟩
  · exact ⟨s.segment, rfl⟩

/-- The report of a truncated frame after the entry into SETTLING has no effect (R102). -/
theorem State.settlingFrom_report (s t : State) (g : Engagement) (b : Bool) :
    (t.settlingFrom g b).engineFrameIf s.truncatedReport = t.settlingFrom g b := by
  unfold State.truncatedReport
  split
  · exact State.settlingFrom_damaged t g b _
  · rfl

/-- TOKEN_EXPIRY where its occasion holds (R122). -/
theorem exec_tokenExpiry {s : State} {g : Engagement} (hg : s.engagement = some g) (hs : g.state = .holding)
    (one : s.token = 1) : exec .tokenExpiry s = .next (s.expireToken g) := by
  have due : s.tokenDue = some g := by
    simp only [State.tokenDue, hg]
    exact if_pos ⟨hs, one⟩
  show Host.Outcome.next s.takeToken = _
  simp only [State.takeToken, due]

/-- Settles O37: the truncation, the charge and the answer, and the move to SETTLING. -/
theorem tokenReclaims : Obligations.TokenReclaims := by
  intro s g j e seen engaged hs hseen one
  obtain ⟨r, hr⟩ := s.truncated_fields
  have h : Engaged { s with segment := r, token := 0 } g j e := engaged.congr rfl rfl rfl
  rw [exec_tokenExpiry engaged.opened hs one]
  simp only [State.expireToken, State.truncate_eq, hr, hseen, Option.getD_some]
  rw [State.charge_answer h.works h.index h.entry, State.enterSettling_eq (by exact h.opened),
    State.settlingFrom_report]
  rfl

/-! ### The end of an upstream frame -/

/-- The Exchange Engine's request waits exactly where the model has it wait (R132, R133; log 14). -/
theorem State.exchangeWaits_iff {s : State} (fits : s.up.total ≤ 8) : s.exchangeWaits = true ↔ ExchangeWaits s := by
  constructor
  · intro h
    simp only [State.exchangeWaits, State.exchangeAsks, Bool.and_eq_true, Bool.or_eq_true, decide_eq_true_eq,
      Bool.not_eq_true', Option.isNone_iff_eq_none, List.isEmpty_eq_false_iff] at h
    obtain ⟨⟨⟨⟨⟨device, noSoftReset⟩, idle⟩, head⟩, place⟩, full⟩ := h
    exact ⟨device, noSoftReset, idle, head, place, Nat.le_antisymm fits full⟩
  · intro ⟨device, noSoftReset, idle, head, place, full⟩
    rcases device with device | device <;>
      simp [State.exchangeWaits, State.exchangeAsks, device, noSoftReset, idle, head, place, full, Config.upCapacity]

/-- The state once the head of the Up Queue has left, before anything is granted (R44, R63). -/
def State.headLeft (s : State) (f : UpFrame) (rest : List UpFrame) : State :=
  { s with
    up := { s.up with frames := rest }
    uplinkTransmitter := .idle
    uplinkRate := rateAfter s.uplinkRate f.mark }

/-- An upstream frame without the SOFT_RESET mark leaves, and its slot is considered (R44, R133). -/
theorem exec_uplinkTransmissionComplete {s : State} {f : UpFrame} {rest : List UpFrame} {wire : List LineChar} {n : Nat}
    (frames : s.up.frames = f :: rest) (sending : s.uplinkTransmitter = .sending wire n)
    (mark : f.mark ≠ some .softReset) : exec .uplinkTransmissionComplete s =
      .next ((s.headLeft f rest).grantFreed s.exchangeWaits s.managementAsks).beginUplink := by
  have busy : s.uplinkTransmitter.isSending = true := by rw [sending]; rfl
  show execUplinkTransmissionComplete s = _
  rw [execUplinkTransmissionComplete, if_pos busy]
  simp only [State.completeUplink, frames, if_neg mark]
  rfl

/-- A request that waits for a slot can be taken once the head has left, whatever the preference (R66, R133). -/
theorem ExchangeWaits.exec_take {s : State} (h : ExchangeWaits s) {f : UpFrame} {rest : List UpFrame}
    (frames : s.up.frames = f :: rest) (p : Engine) :
    let freed := s.headLeft f rest
    let t := { freed with up := { freed.up with preference := p } }
    exec .take t = .next t.takeHead := by
  intro freed t
  have noSoftReset : t.softResetUnderWay = false := by
    have before := h.noSoftReset
    simp only [State.softResetUnderWay, frames, List.any_cons, Bool.or_eq_false_iff] at before
    exact before.2
  have room : t.up.total < 8 := by
    have full := h.full
    simp only [UpQueue.total, frames, List.length_cons] at full
    show rest.length + s.up.reserved < 8
    omega
  obtain ⟨d, ds, head⟩ := List.exists_cons_of_ne_nil h.head
  exact MayTake.exec_take (f := d) (rest := ds) ⟨noSoftReset, h.idle, head, h.place, room⟩ h.device

/-- Settles O38: which engine is granted the freed slot, and the next frame. -/
theorem uplinkFrameCompletes : Obligations.UplinkFrameCompletes := by
  intro s f rest wire n accounts hw frames sending mark freed begun
  have granted (x m : Bool) (hx : s.exchangeWaits = x) (hm : s.managementAsks = m)
      (works : (freed.grantFreed x m).works = true) :
      exec .uplinkTransmissionComplete s = .next (begun (freed.grantFreed x m)) := by
    rw [exec_uplinkTransmissionComplete frames sending mark, hx, hm]
    exact congrArg _ (State.beginUplink_eq (freed.grantFreed x m) works)
  have exchange := State.exchangeWaits_iff accounts.total
  have management := managementAsks_iff s
  have noExchange (h : ¬ ExchangeWaits s) : s.exchangeWaits = false :=
    Bool.eq_false_iff.mpr fun waits => h (exchange.mp waits)
  have noManagement (h : ¬ ManagementWaits s) : s.managementAsks = false :=
    Bool.eq_false_iff.mpr fun asks => h (management.mp asks)
  refine ⟨fun nx nm => ?_, fun nx m => ?_, fun x nm => ?_, fun x m => ⟨fun preferred => ?_, fun preferred => ?_⟩⟩
  · exact granted false false (noExchange nx) (noManagement nm) hw
  · exact granted false true (noExchange nx) (management.mpr m) hw
  · exact ⟨_, x.exec_take frames s.up.preference,
      granted true false (exchange.mpr x) (noManagement nm) (State.takeHead_works (s := freed) hw)⟩
  · have pick : freed.grantFreed true true =
        { freed with up := { freed.up with managementHeld := true, preference := .exchange } } := by
      have same : freed.up.preference = .management := preferred
      simp only [State.grantFreed, same]
      rfl
    rw [← pick]
    exact granted true true (exchange.mpr x) (management.mpr m) (by rw [pick]; exact hw)
  · have pick : freed.grantFreed true true =
        State.takeHead { freed with up := { freed.up with preference := .management } } := by
      have same : freed.up.preference = .exchange := preferred
      simp only [State.grantFreed, same]
    refine ⟨_, x.exec_take frames .management, ?_⟩
    have works : (freed.grantFreed true true).works = true := by
      rw [pick]
      exact State.takeHead_works (s := { freed with up := { freed.up with preference := .management } }) hw
    rw [granted true true (exchange.mpr x) (management.mpr m) works, pick]
    rfl

end Sys2Proof.Machine
end

section
/-! SUPPORT. One character time: what each counter steps to and what it owes (R27, R46, R48, R53, R83, R109, R150). -/

namespace Sys2Proof.Machine

/-! ### The uplink -/

/-- A character time leaves the frame and the character in progress on the uplink. -/
theorem UplinkReceiver.tick_fields (r : UplinkReceiver) :
    r.tick.1.frame = r.frame ∧ r.tick.1.midCharacter = r.midCharacter := by
  unfold UplinkReceiver.tick
  split_ifs <;> exact ⟨rfl, rfl⟩

/-- Inside a character there is no silence on the uplink (R27). -/
theorem UplinkReceiver.tick_mid {r : UplinkReceiver} (mid : r.midCharacter = true) :
    r.tick = ({ r with silence := 0 }, []) := if_pos mid

/-- Two character times of silence end a frame on the uplink: the step is owed (R35). -/
theorem UplinkReceiver.tick_fragment {r : UplinkReceiver} {f : OpenFrame} (mid : r.midCharacter = false)
    (frame : r.frame = some f) (one : r.silence = 1) : r.tick = (r, [.uplinkFragment]) := by
  simp [UplinkReceiver.tick, mid, frame, one]

/-- Silence on the uplink is counted up to 63 (R27; log 21). -/
theorem UplinkReceiver.tick_counts {r : UplinkReceiver} (mid : r.midCharacter = false)
    (h : r.silence ≠ 1 ∨ r.frame = none) : r.tick = ({ r with silence := min (r.silence + 1) 63 }, []) := by
  have noStep : ¬ (r.silence = 1 ∧ r.frame.isSome = true) := by
    rcases h with h | h <;> simp [h]
  rw [UplinkReceiver.tick, if_neg (by simp [mid]), if_neg noStep]
  rfl

/-- The uplink transmitter moves on inside its frame (log 10). -/
theorem UplinkTransmitter.tick_sending (wire : List LineChar) (n moved : Nat) :
    ∃ m, (UplinkTransmitter.sending wire n).tick moved = .sending wire m ∧ n ≤ m ∧
      (n < wire.length → m < wire.length) :=
  ⟨_, rfl, le_max_left _ _, fun _ => by omega⟩

/-! ### Silence and activity on the segment -/

/-- No silence is counted inside a character, or while the gate drives the line (R46; log 5). -/
theorem silenceTick_held {r : SegmentReceiver} {drives : Bool} (h : r.midCharacter = true ∨ drives = true) (gap : Nat) :
    silenceTick r drives gap = (0, []) := by
  rcases h with h | h <;> simp [silenceTick, h]

/-- Two character times of silence end a frame on the segment: the step is owed (R35). -/
theorem silenceTick_fragment {r : SegmentReceiver} {f : OpenFrame} (mid : r.midCharacter = false)
    (frame : r.state = .inFrame f) (one : r.silence = 1) (gap : Nat) :
    silenceTick r false gap = (1, [.segmentFragment]) := by
  simp [silenceTick, mid, frame, one, ReceiverState.isInFrame]

/-- A receiver has a frame open exactly in IN_FRAME. -/
theorem ReceiverState.isInFrame_iff (r : ReceiverState) : r.isInFrame = true ↔ ∃ f, r = .inFrame f := by
  cases r <;> simp [ReceiverState.isInFrame]

/-- Silence that ends no frame is counted up to 63, and its step to the gap time is owed (R46, R47). -/
theorem silenceTick_counts {r : SegmentReceiver} (mid : r.midCharacter = false)
    (h : r.silence ≠ 1 ∨ ∀ f, r.state ≠ .inFrame f) (gap : Nat) :
    silenceTick r false gap =
      if r.silence + 1 = gap then (r.silence, [.quiet]) else (min (r.silence + 1) 63, []) := by
  have noStep : ¬ (r.silence = 1 ∧ r.state.isInFrame = true) := by
    rw [ReceiverState.isInFrame_iff]
    rintro ⟨one, f, frame⟩
    exact h.elim (· one) (· f frame)
  rw [silenceTick, if_neg (by simp [mid]), if_neg noStep]
  rfl

/-- The run is held at 0 while the transmitter holds the line and while MUTED (R48). -/
theorem activityTick_held {r : SegmentReceiver} {holds : Bool} (h : holds = true ∨ r.state = .muted) (limit : Nat) :
    activityTick r holds limit = (0, []) := by
  rcases h with h | h <;> simp [activityTick, h]

/-- The receiver listens: neither MUTED nor beside a transmitter that holds the line (R48). -/
theorem activityTick_listens {r : SegmentReceiver} (listens : r.state ≠ .muted) :
    (false || r.state == .muted) = false := by
  simpa using listens

/-- A run goes on, and its step past the jabber limit is owed (R48, R49). -/
theorem activityTick_run {r : SegmentReceiver} (listens : r.state ≠ .muted)
    (run : r.midCharacter = true ∨ r.silence = 0 ∧ r.activity ≠ 0) (limit : Nat) :
    activityTick r false limit =
      if limit ≤ r.activity then (r.activity, [.jabber]) else (r.activity + 1, []) := by
  have noSilence : (!r.midCharacter && decide (1 ≤ r.silence)) = false := by
    rcases run with mid | ⟨silence, _⟩ <;> simp [*]
  have begun : ¬ (r.activity = 0 ∧ r.midCharacter = false) := by
    rcases run with mid | ⟨_, active⟩ <;> simp [*]
  rw [activityTick, if_neg (by simp [activityTick_listens listens]), if_neg (by simp [noSilence]), if_neg begun]

/-- With no run under way none begins in a silence (R48). -/
theorem activityTick_none {r : SegmentReceiver} (listens : r.state ≠ .muted) (mid : r.midCharacter = false)
    (silence : r.silence = 0) (still : r.activity = 0) (limit : Nat) : activityTick r false limit = (0, []) := by
  simp [activityTick, listens, mid, silence, still]

/-- A run stands while the step of a silence of two is owed (R48; log 6). -/
theorem activityTick_fragment {r : SegmentReceiver} {f : OpenFrame} (mid : r.midCharacter = false)
    (frame : r.state = .inFrame f) (one : r.silence = 1) (limit : Nat) :
    activityTick r false limit = (r.activity, []) := by
  simp [activityTick, mid, frame, one, ReceiverState.isInFrame]

/-- A silence that ends no frame ends the run (R48). -/
theorem activityTick_silent {r : SegmentReceiver} (listens : r.state ≠ .muted) (mid : r.midCharacter = false)
    (h : 2 ≤ r.silence ∨ r.silence = 1 ∧ ∀ f, r.state ≠ .inFrame f) (limit : Nat) :
    activityTick r false limit = (0, []) := by
  have silent : 1 ≤ r.silence := by omega
  have ended : ¬ (r.silence = 1 ∧ r.state.isInFrame = true) := by
    rw [ReceiverState.isInFrame_iff]
    rintro ⟨one, f, frame⟩
    exact h.elim (by omega) (·.2 f frame)
  rw [activityTick, if_neg (by simp [activityTick_listens listens]), if_pos (by simp [mid, silent]), if_neg ended]

/-! ### The segment transmitter and the engine's timers -/

/-- A transmitter that does not hold the line stands. -/
theorem SegmentTransmitter.tick_free {t : SegmentTransmitter} (free : t.holdsLine = false) : t.tick = (t, []) := by
  cases t with
  | idle | gapWait => rfl
  | onLine | aborting => simp [SegmentTransmitter.holdsLine] at free

/-- One character of a frame on the line is finished; the echo of one finished before it is missing (R53, R54). -/
theorem SegmentTransmitter.tick_onLine (f : LineFrame) {sent : Nat} (inside : sent ≤ f.payload.length + 7)
    (compared : Nat) :
    let n := if sent < f.payload.length + 7 then sent + 1 else sent
    (SegmentTransmitter.onLine f sent compared).tick =
      (.onLine f n compared, if compared + 2 ≤ n then [.missingEcho] else []) := by
  intro n
  have next : min (sent + 1) (f.length + 1) = n := by
    show min (sent + 1) (f.payload.length + 6 + 1) = if sent < f.payload.length + 7 then sent + 1 else sent
    split <;> omega
  simp only [SegmentTransmitter.tick, next, SegmentTransmitter.echoMissing, decide_eq_true_eq]

/-- The watch counter steps in AWAITING; the step to the deadline is owed (R83, R88). -/
theorem State.watchTick_awaiting {s : State} {g : Engagement} (hg : s.engagement = some g) (hs : g.state = .awaiting) :
    s.watchTick = if s.watch + 1 = s.engagedDeadline g then (s.watch, [.deadline]) else (s.watch + 1, []) := by
  simp only [State.watchTick, hg, if_pos hs]

/-- The watch counter stands outside AWAITING. -/
theorem State.watchTick_stands {s : State} (h : ∀ g, s.engagement = some g → g.state ≠ .awaiting) :
    s.watchTick = (s.watch, []) := by
  unfold State.watchTick
  split
  · rfl
  · next g hg => exact if_neg (h g hg)

/-- The token counter steps down in HOLDING; the step to 0 is owed (R109, R122). -/
theorem State.tokenTick_holding {s : State} {g : Engagement} (hg : s.engagement = some g) (hs : g.state = .holding) :
    s.tokenTick = if s.token = 1 then (1, [.token]) else (s.token - 1, []) := by
  simp only [State.tokenTick, hg, if_pos hs]

/-- The token counter stands outside HOLDING. -/
theorem State.tokenTick_stands {s : State} (h : ∀ g, s.engagement = some g → g.state ≠ .holding) :
    s.tokenTick = (s.token, []) := by
  unfold State.tokenTick
  split
  · rfl
  · next g hg => exact if_neg (h g hg)

/-! ### The whole state after one character time -/

/-- The watch counter of the next state, and whether it owes the deadline. -/
theorem State.passTime_watch {s : State} {n : Nat} {l : List Threshold} (h : s.watchTick = (n, l)) :
    s.passTime.watch = n ∧ (.deadline ∈ s.passTime.owed ↔ .deadline ∈ l) := by
  refine ⟨congrArg Prod.fst h, (s.mem_passTime_owed .deadline).trans ?_⟩
  rw [h]

/-- The token counter of the next state, and whether it owes the expiry. -/
theorem State.passTime_token {s : State} {n : Nat} {l : List Threshold} (h : s.tokenTick = (n, l)) :
    s.passTime.token = n ∧ (.token ∈ s.passTime.owed ↔ .token ∈ l) := by
  refine ⟨congrArg Prod.fst h, (s.mem_passTime_owed .token).trans ?_⟩
  rw [h]

/-- The uplink receiver of the next state, and whether it owes the end of a fragment. -/
theorem State.passTime_uplink {s : State} {r : UplinkReceiver} {l : List Threshold} (h : s.uplink.tick = (r, l)) :
    s.passTime.uplink = r ∧ (.uplinkFragment ∈ s.passTime.owed ↔ .uplinkFragment ∈ l) := by
  refine ⟨congrArg Prod.fst h, (s.mem_passTime_owed .uplinkFragment).trans ?_⟩
  rw [h]

/-- The segment transmitter of the next state, and what it owes. -/
theorem State.passTime_transmitter {s : State} {t : SegmentTransmitter} {l : List Threshold}
    (h : s.transmitter.tick = (t, l)) : s.passTime.transmitter = t ∧
      (.missingEcho ∈ s.passTime.owed ↔ .missingEcho ∈ l) ∧ (.abortEnd ∈ s.passTime.owed ↔ .abortEnd ∈ l) := by
  refine ⟨congrArg Prod.fst h, (s.mem_passTime_owed .missingEcho).trans ?_,
    (s.mem_passTime_owed .abortEnd).trans ?_⟩ <;>
    rw [h]

/-- The silence of the next state, and what it owes. -/
theorem State.passTime_silence {s : State} {n : Nat} {l : List Threshold}
    (h : silenceTick s.segment s.transmitter.drives s.policy.gapTime.toNat = (n, l)) :
    s.passTime.segment.silence = n ∧ (.quiet ∈ s.passTime.owed ↔ .quiet ∈ l) ∧
      (.segmentFragment ∈ s.passTime.owed ↔ .segmentFragment ∈ l) := by
  refine ⟨congrArg Prod.fst h, (s.mem_passTime_owed .quiet).trans ?_,
    (s.mem_passTime_owed .segmentFragment).trans ?_⟩ <;>
    rw [h]

/-- The run of the next state, and whether it owes JABBER. -/
theorem State.passTime_activity {s : State} {n : Nat} {l : List Threshold}
    (h : activityTick s.segment s.transmitter.holdsLine s.policy.jabberLimit.toNat = (n, l)) :
    s.passTime.segment.activity = n ∧ (.jabber ∈ s.passTime.owed ↔ .jabber ∈ l) := by
  refine ⟨congrArg Prod.fst h, (s.mem_passTime_owed .jabber).trans ?_⟩
  rw [h]

/-! ### A step that is owed -/

/-- The command that each threshold step is taken by. -/
def Threshold.command : Threshold → Instr
  | .deadline => .deadlineExpiry
  | .token => .tokenExpiry
  | .jabber => .jabber
  | .quiet => .lineQuiet
  | .segmentFragment => .fragmentSilence .segment
  | .uplinkFragment => .fragmentSilence .uplink
  | .missingEcho => .echoFault none
  | .abortEnd => .abortEnd

/-- A step is taken as its command takes it (log 3). -/
theorem Threshold.exec_command (x : Threshold) (s : State) : exec x.command s = .next (s.takeThreshold x) := by
  cases x <;> rfl

/-- One step owed is taken before the next character time passes (log 3). -/
theorem exec_characterTime_owed {s : State} {x : Threshold} (owed : s.owed = [x]) :
    exec .characterTime s = exec .characterTime (State.takeThreshold { s with owed := [] } x) := by
  have taken : State.settleOwed s.owed.length s = State.takeThreshold { s with owed := [] } x := by
    rw [owed]
    simp only [List.length_singleton, State.settleOwed, owed]
  have nothing : (State.takeThreshold { s with owed := [] } x).owed = [] := State.takeThreshold_owed ..
  have settled (t : State) (h : t.owed = []) : State.settleOwed t.owed.length t = t := by
    rw [h]
    exact congrArg (fun l => { t with owed := l }) h.symm
  show execCharacterTime s = execCharacterTime _
  rw [execCharacterTime, execCharacterTime, taken, settled _ nothing]

/-- Settles O35: each counter by the case its rule names; a step owed by the command that takes it. -/
theorem characterTimeSteps : Obligations.CharacterTimeSteps := by
  refine ⟨fun s hw nothing => ⟨s.passTime, exec_characterTime_works hw nothing, rfl, rfl, rfl,
    s.uplink.tick_fields.1, s.uplink.tick_fields.2, ?awaiting, ?noWatch, ?holding, ?noToken, ?midUplink, ?silentUplink,
    ?idleUplink, ?sending, ?onLine, ?aborting, ?lastAborting, ?free, ?noSilence, ?silence, ?run, ?noRun⟩, ?owed⟩
  case awaiting =>
    intro g j e hg hj he hs
    have deadline : s.engagedDeadline g = e.config.deadline.toNat := by
      have entry : s.entryAt g.index = some e := by rw [hj]; exact he
      simp only [State.engagedDeadline, entry, Option.elim_some]
    have tick := State.watchTick_awaiting hg hs
    rw [deadline] at tick
    refine ⟨fun short => ?_, fun last => ?_⟩
    · rw [if_neg (Nat.ne_of_lt short)] at tick
      simpa using State.passTime_watch tick
    · rw [if_pos last] at tick
      simpa using State.passTime_watch tick
  case noWatch => exact fun h => by simpa using State.passTime_watch (State.watchTick_stands h)
  case holding =>
    intro g hg hs
    have tick := State.tokenTick_holding hg hs
    refine ⟨fun more => ?_, fun one => ?_⟩
    · rw [if_neg (Nat.ne_of_gt more)] at tick
      simpa using State.passTime_token tick
    · rw [if_pos one] at tick
      simpa using State.passTime_token tick
  case noToken => exact fun h => by simpa using State.passTime_token (State.tokenTick_stands h)
  case midUplink =>
    intro mid
    obtain ⟨uplink, owes⟩ := State.passTime_uplink (UplinkReceiver.tick_mid mid)
    exact ⟨by rw [uplink], by simpa using owes⟩
  case silentUplink =>
    refine fun mid => ⟨fun f frame one => ?_, fun h => ?_⟩
    · obtain ⟨uplink, owes⟩ := State.passTime_uplink (UplinkReceiver.tick_fragment mid frame one)
      exact ⟨by rw [uplink, one], by simpa using owes⟩
    · obtain ⟨uplink, owes⟩ := State.passTime_uplink (UplinkReceiver.tick_counts mid h)
      refine ⟨fun below => ?_, fun top => ?_, by simpa using owes⟩ <;>
        · rw [uplink]
          dsimp only
          omega
  case idleUplink =>
    intro idle
    show s.uplinkTransmitter.tick _ = _
    rw [idle]
    rfl
  case sending =>
    intro wire n sending
    show ∃ m, s.uplinkTransmitter.tick _ = _ ∧ _
    rw [sending]
    exact UplinkTransmitter.tick_sending wire n _
  case onLine =>
    intro f sent compared ht inside n
    have tick := SegmentTransmitter.tick_onLine f inside compared
    rw [← ht] at tick
    obtain ⟨transmitter, missing, -⟩ := State.passTime_transmitter tick
    exact ⟨transmitter, missing.trans (List.mem_ite_nil_right.trans (and_iff_left (List.mem_singleton_self _)))⟩
  case aborting =>
    intro c d left held ht
    have tick : s.transmitter.tick = (.aborting (d :: left) held, []) := by
      simp [ht, SegmentTransmitter.tick]
    obtain ⟨transmitter, -, ends⟩ := State.passTime_transmitter tick
    exact ⟨transmitter, by simpa using ends⟩
  case lastAborting =>
    intro left held ht one
    have tick : s.transmitter.tick = (.aborting left held, [.abortEnd]) := by
      simp [ht, SegmentTransmitter.tick, one]
    obtain ⟨transmitter, -, ends⟩ := State.passTime_transmitter tick
    exact ⟨transmitter, by simpa using ends⟩
  case free =>
    intro free
    simpa using State.passTime_transmitter (SegmentTransmitter.tick_free free)
  case noSilence =>
    intro held
    simpa using State.passTime_silence (silenceTick_held held _)
  case silence =>
    intro mid drives
    have counts {n : Nat} {l : List Threshold}
        (tick : silenceTick s.segment false s.policy.gapTime.toNat = (n, l)) :=
      State.passTime_silence (s := s) (n := n) (l := l) (by rw [show s.transmitter.drives = false from drives, tick])
    refine ⟨fun f frame one => ?_, fun h => ?_⟩
    · simpa [and_comm] using counts (silenceTick_fragment mid frame one _)
    · have tick := silenceTick_counts mid h s.policy.gapTime.toNat
      by_cases gap : s.segment.silence + 1 = s.policy.gapTime.toNat
      · rw [if_pos gap] at tick
        simpa [gap, and_assoc] using counts tick
      · rw [if_neg gap] at tick
        obtain ⟨silence, quiet, fragment⟩ := counts tick
        refine ⟨fun h => absurd h gap, fun _ below => ⟨?_, by simpa using quiet⟩,
          fun _ top => ⟨?_, by simpa using quiet⟩, by simpa using fragment⟩ <;>
        · rw [silence]
          omega
  case run =>
    intro free listens
    have counts {n : Nat} {l : List Threshold}
        (tick : activityTick s.segment false s.policy.jabberLimit.toNat = (n, l)) :=
      State.passTime_activity (s := s) (n := n) (l := l) (by rw [free, tick])
    refine ⟨fun run => ?_, fun mid => ⟨fun silence still => ?_, fun f frame one => ?_, fun h => ?_⟩⟩
    · have tick := activityTick_run listens run s.policy.jabberLimit.toNat
      refine ⟨fun below => ?_, fun at' => ?_⟩
      · rw [if_neg (Nat.not_le.mpr below)] at tick
        simpa using counts tick
      · rw [if_pos at'] at tick
        simpa using counts tick
    · simpa using counts (activityTick_none listens mid silence still _)
    · simpa using counts (activityTick_fragment mid frame one _)
    · simpa using counts (activityTick_silent listens mid h _)
  case noRun =>
    intro held
    simpa using State.passTime_activity (activityTick_held held _)
  case owed =>
    intro s x c named owed
    have command : c = x.command := by
      cases x <;> simpa [Threshold.command] using named
    exact ⟨_, command ▸ x.exec_command _, exec_characterTime_owed owed⟩

end Sys2Proof.Machine
end

section
/-! SUPPORT. Admission: the checks of a frame taken in RUN, in ENFORCE and in OBSERVE (R69 to R80). -/

namespace Sys2Proof.Machine

/-! ### The frame taken -/

/-- The frame is out of the Down Queue, and the Exchange Engine's reservation is held for it (R66, R68). -/
def State.reserving (s : State) (rest : List DownFrame) : State :=
  { s with downQueue := rest, up := { s.up with exchangeHeld := true } }

/-- A frame taken in RUN is examined (R69). -/
theorem MayTake.exec_take_run {s : State} {f : DownFrame} {rest : List DownFrame} (h : MayTake s f rest)
    (run : s.device = .run) : exec .take s = .next ((s.reserving rest).examine f) := by
  rw [h.exec_take (.inl run), State.takeHead_eq h, if_neg (by simp [run])]
  rfl

/-- The gate works in RUN. -/
theorem State.works_of_run {s : State} (run : s.device = .run) : s.works = true := by
  simp [State.works, DeviceState.works, run]

/-- A frame taken in RUN that fails a check of no entry is refused (R69, R70, R76). -/
theorem MayTake.refuse_none {s : State} {f : DownFrame} {rest : List DownFrame} (h : MayTake s f rest)
    (run : s.device = .run) (o : Option Byte) (r : Reason) :
    (s.reserving rest).refuse f none o r 0 =
      { s with downQueue := rest }.refusing f [s.eventNow .refused none o (codeDetail r.code)] r.code
        (refusalDetail r f 0) :=
  State.refuse_none { s with downQueue := rest } h.place (State.works_of_run run) f o r 0

/-- A SEND is refused without an answer, so neither code nor detail matters (R68, R76). -/
theorem State.refusing_send {f : DownFrame} (send : f.kind = .send) (s : State) (l : List EventRecord) (r r' : Byte)
    (d d' : Half) : s.refusing f l r d = s.refusing f l r' d' := by
  rw [State.refusing, State.refusing, if_pos send, if_pos send]

/-- Settles O40: check 1 decides, before the table is read. -/
theorem takeBroadcast : Obligations.TakeBroadcast := by
  intro s f rest h run all
  have refused (closed : ¬ (f.kind = .send ∧ s.policy.broadcastAllowed = true)) : exec .take s =
      .next ({ s with downQueue := rest }.refusing f [s.eventNow .refused none none 1] 1
        (kindDetail f.kind.code)) := by
    rw [h.exec_take_run run, State.examine, if_pos all, if_neg (by exact closed), h.refuse_none run]
    rfl
  refine ⟨fun send allowed => ?_, fun other => ?_, fun grant => ?_⟩
  · rw [h.exec_take_run run, State.examine, if_pos all, if_pos (by exact ⟨send, allowed⟩), State.forwardBroadcast, all,
      send, State.handOver_eq _ (by exact run)]
    rfl
  · rcases other with ⟨send, forbidden⟩ | request
    · rw [refused (by simp [forbidden])]
      exact congrArg _ (State.refusing_send send _ _ _ _ _ _)
    · rw [refused (by simp [request]), request]
      rfl
  · rw [refused (by simp [grant]), grant]
    rfl

/-! ### The frame for an entry -/

/-- The entry of a frame taken does not stand at the broadcast address. -/
theorem TakesFor.notBroadcast {s : State} {f : DownFrame} {rest : List DownFrame} {i : Fin 64} {e : Entry}
    (h : TakesFor s f rest i e) : f.dest ≠ 0xFF := by
  have low := (h.sound.entries i e h.entry).config.outer
  intro all
  rw [← h.dest, all] at low
  exact absurd low (by decide)

/-- The lookup finds the entry, and the mode chooses how its checks are made (R70, R78). -/
theorem TakesFor.exec_take {s : State} {f : DownFrame} {rest : List DownFrame} {i : Fin 64} {e : Entry}
    (h : TakesFor s f rest i e) :
    (s.policy.mode = .enforce → exec .take s = .next ((s.reserving rest).admitEnforce f i e)) ∧
      (s.policy.mode = .observe → exec .take s = .next ((s.reserving rest).admitObserve f i e)) := by
  have found : findOuter (s.reserving rest).table f.dest = some i :=
    (h.sound.findOuter_iff _ _).mpr ⟨e, h.entry, h.dest.symm⟩
  have entry : (s.reserving rest).table.get i = some e := h.entry
  have policy : (s.reserving rest).policy = s.policy := rfl
  rw [h.may.exec_take_run h.run]
  constructor <;>
    · intro mode
      simp only [State.examine, if_neg h.notBroadcast, found, entry, policy, mode]

/-- A frame refused for the entry, which the take may have changed before (R76, R77). -/
theorem TakesFor.refuse {s : State} {f : DownFrame} {rest : List DownFrame} {i : Fin 64} {e : Entry}
    (h : TakesFor s f rest i e) (x : Entry) (r : Reason) (n : Nat) :
    State.refuse { s.reserving rest with table := s.table.set i.val (some x) } f (some i) (some e.config.outer) r n =
      ({ s with downQueue := rest, table := s.table.set i.val (some x.refused) } : State).refusing f
        [s.eventNow .refused (some i) (some e.config.outer) (codeDetail r.code)] r.code (refusalDetail r f n) := by
  have refused := State.refuse_some { s with downQueue := rest, table := s.table.set i.val (some x) } h.may.place
    (State.works_of_run h.run) f i x (Table.get_set_self ..) (some e.config.outer) r n
  rw [Table.set_set] at refused
  exact refused

/-- A frame refused for the entry as it stood (R76, R77). -/
theorem TakesFor.refuse_unchanged {s : State} {f : DownFrame} {rest : List DownFrame} {i : Fin 64} {e : Entry}
    (h : TakesFor s f rest i e) (r : Reason) (n : Nat) :
    (s.reserving rest).refuse f (some i) (some e.config.outer) r n =
      ({ s with downQueue := rest, table := s.table.set i.val (some e.refused) } : State).refusing f
        [s.eventNow .refused (some i) (some e.config.outer) (codeDetail r.code)] r.code (refusalDetail r f n) :=
  State.refuse_some { s with downQueue := rest } h.may.place (State.works_of_run h.run) f i e h.entry _ r n

/-- A frame forwarded to the entry, which the take may have changed before (R79, R80). -/
theorem TakesFor.forward {s : State} {f : DownFrame} {rest : List DownFrame} {i : Fin 64} {e : Entry}
    (h : TakesFor s f rest i e) (t : Table) (probe : Bool) (l : List EventRecord) :
    (({ s.reserving rest with table := t } : State).posting l).forward f i e probe =
      ({ s with downQueue := rest, table := t } : State).forwarding f i e probe l :=
  State.forward_eq { s with downQueue := rest, table := t } h.run f i e h.dest probe l

/-- Check 5 or 6 refuses a frame that checks 3 and 4 let through (R73, R74). -/
theorem FailsChecks.admitChecked {f : DownFrame} {e : Entry} {reason : Byte} {detail : Half}
    (h : FailsChecks f e reason detail) (s : State) (i : Fin 64) (probe : Bool) :
    ∃ r : Reason, r.code = reason ∧ refusalDetail r f 0 = detail ∧
      s.admitChecked f i e probe = s.refuse f (some i) (some e.config.outer) r 0 := by
  obtain ⟨r, fails, code, detail'⟩ := h.reason
  exact ⟨r, code, detail', by simp only [State.admitChecked, fails]⟩

/-- A frame that passes checks 5 and 6 is forwarded (R75). -/
theorem PassesChecks.admitChecked {f : DownFrame} {e : Entry} (h : PassesChecks f e) (s : State) (i : Fin 64)
    (probe : Bool) : s.admitChecked f i e probe = s.forward f i e probe := by
  simp only [State.admitChecked, h.none]

/-! ### ENFORCE -/

/-- Check 3 lets every entry through that is not DISABLED (R71). -/
theorem checkAdmin_none {e : Entry} (h : e.status ≠ .disabled) : checkAdmin e = none := if_neg h

/-- Check 3 (R71). -/
theorem checkAdmin_some {e : Entry} (h : e.status = .disabled) : checkAdmin e = some .disabled := if_pos h

/-- An ENABLED entry meets checks 5 to 7 (R72). -/
theorem State.admitEnforce_enabled {e : Entry} (h : e.status = .enabled) (s : State) (f : DownFrame) (i : Fin 64) :
    s.admitEnforce f i e = s.admitChecked f i e false := by
  simp [State.admitEnforce, checkAdmin_none (e := e) (by simp [h]), h]

/-- Settles O41: the lookup, then check 3, or checks 5 and 6 of an ENABLED entry. -/
theorem takeRefused : Obligations.TakeRefused := by
  refine ⟨fun s f rest h run ordinary unknown => ?_, fun s f rest i e reason detail h mode fails => ?_⟩
  · rw [h.exec_take_run run, State.examine, if_neg ordinary]
    cases found : findOuter (s.reserving rest).table f.dest with
    | none => exact congrArg _ (h.refuse_none run _ .unknown)
    | some i =>
      obtain ⟨e, entry, outer⟩ := findOuter_entry found
      exact absurd outer (unknown i e entry)
  · rw [h.exec_take.1 mode]
    rcases fails with ⟨disabled, rfl, rfl⟩ | ⟨enabled, fails⟩
    · simp only [State.admitEnforce, checkAdmin_some disabled]
      exact congrArg _ (h.refuse_unchanged .disabled 0)
    · obtain ⟨r, rfl, rfl, refused⟩ := fails.admitChecked (s.reserving rest) i false
      rw [State.admitEnforce_enabled enabled, refused, h.refuse_unchanged]

/-- Check 4 of a BARRED entry: the countdown is decreased, or loaded again for a probe (R72). -/
theorem State.admitEnforce_barred {s : State} {i : Fin 64} {e : Entry} (entry : s.table.get i = some e)
    (h : e.status = .barred) (f : DownFrame) : s.admitEnforce f i e =
      if e.probeCountdown - 1 = 0 then
        State.admitChecked { s with
          table := s.table.set i.val (some { e with probeCountdown := s.policy.probeInterval.toNat }) } f i e true
      else State.refuse { s with
          table := s.table.set i.val (some { e with probeCountdown := e.probeCountdown - 1 }) } f (some i)
        (some e.config.outer) .barred (e.probeCountdown - 1) := by
  simp only [State.admitEnforce, checkAdmin_none (e := e) (by simp [h]), if_pos h, State.modifyEntry_eq entry]

/-- Settles O42: no entry is BARRED in OBSERVE, and in ENFORCE check 4 counts down to the probe. -/
theorem takeForBarredEntry : Obligations.TakeForBarredEntry := by
  intro s f rest i e h barred loaded
  have mode : s.policy.mode = .enforce := (h.sound.entries i e h.entry).barred barred
  rw [h.exec_take.1 mode, State.admitEnforce_barred (s := s.reserving rest) h.entry barred]
  refine ⟨fun many => ?_, fun one => ?_⟩
  · intro counted
    rw [if_neg (by omega)]
    exact congrArg _ (h.refuse counted .barred _)
  · rw [if_pos (by omega)]
    refine ⟨fun reason detail fails => ?_, fun passes => ?_⟩
    · obtain ⟨r, rfl, rfl, refused⟩ := fails.admitChecked
        { s.reserving rest with table := s.table.set i.val (some loaded) } i true
      exact congrArg _ (refused.trans (h.refuse loaded r 0))
    · rw [passes.admitChecked]
      exact congrArg _ (h.forward (s.table.set i.val (some loaded)) true [])

/-! ### OBSERVE -/

/-- The failure that OBSERVE enforces, if the frame has one (R78). -/
theorem observedFailures_enforced (f : DownFrame) (e : Entry) :
    (observedFailures f e).find? (enforcedInObserve f.kind) =
      if f.kind = .request ∧ e.config.polled = false then some .notPolled
      else if f.kind = .grant ∧ (e.config.token = false ∨ budgetOf f.payload = 0) then some .tokenDenied
      else none := by
  have admin : (checkAdmin e).toList.find? (enforcedInObserve f.kind) = none := by
    unfold checkAdmin
    split <;> rfl
  rw [observedFailures, List.append_assoc, List.find?_append, admin, Option.none_or, List.find?_append]
  cases kind : f.kind with
  | request | send =>
    cases polled : e.config.polled <;>
      by_cases long : e.config.maxRequest.toNat < f.payload.length <;>
      simp [checkClass, checkSize, kind, polled, long, enforcedInObserve]
  | grant =>
    have size : checkSize f e = if budgetOf f.payload = 0 then some .tokenDenied else none := by
      simp only [checkSize, kind]
    cases token : e.config.token with
    | false => simp [checkClass, token, enforcedInObserve]
    | true =>
      by_cases zero : budgetOf f.payload = 0
      · simp [checkClass, size, token, zero, enforcedInObserve]
      · rw [size, if_neg zero, if_neg (by simp), if_neg (fun denied => denied.2.elim (by simp) zero)]
        simp [checkClass, token]

/-- An enforced failure refuses in OBSERVE as in ENFORCE (R78). -/
theorem State.admitObserve_refused {f : DownFrame} {e : Entry} {r : Reason}
    (h : (observedFailures f e).find? (enforcedInObserve f.kind) = some r) (s : State) (i : Fin 64) :
    s.admitObserve f i e = s.refuse f (some i) (some e.config.outer) r 0 := by
  simp only [State.admitObserve, h]

/-- The first of the other failures is recorded, and the frame forwarded (R78). -/
theorem State.admitObserve_recorded {f : DownFrame} {e : Entry} {r : Reason} {l : List Reason}
    (enforced : (observedFailures f e).find? (enforcedInObserve f.kind) = none) (h : observedFailures f e = r :: l)
    (s : State) (i : Fin 64) : s.admitObserve f i e =
      (s.recordRefusal (some i) (some e.config.outer) r true).forward f i e false := by
  simp only [State.admitObserve, enforced]
  rw [h]

/-- With no failure the frame is forwarded (R78). -/
theorem State.admitObserve_passes {f : DownFrame} {e : Entry} (h : observedFailures f e = []) (s : State)
    (i : Fin 64) : s.admitObserve f i e = s.forward f i e false := by
  simp only [State.admitObserve, h, List.find?_nil]

/-- A frame that passes every check has no failure to observe. -/
theorem PassesChecks.observedFailures {f : DownFrame} {e : Entry} (h : PassesChecks f e)
    (enabled : e.status = .enabled) : observedFailures f e = [] := by
  have both : (checkClass f.kind e).or (checkSize f e) = Option.none := h.none
  rw [Option.or_eq_none_iff] at both
  simp [Machine.observedFailures, checkAdmin_none (e := e) (by simp [enabled]), both.1, both.2]

/-- Settles O43: the checks let the frame through in either mode. -/
theorem takeForwarded : Obligations.TakeForwarded := by
  refine ⟨fun _ _ => rfl, fun s f rest i e h enabled passes => ?_⟩
  have forwarded : (s.reserving rest).forward f i e false = { s with downQueue := rest }.forwarding f i e false [] :=
    h.forward s.table false []
  cases mode : s.policy.mode with
  | enforce => rw [h.exec_take.1 mode, State.admitEnforce_enabled enabled, passes.admitChecked, forwarded]
  | observe => rw [h.exec_take.2 mode, State.admitObserve_passes (passes.observedFailures enabled), forwarded]

/-- Settles O44: the enforced failure refuses; of the others the first in check order is recorded. -/
theorem takeInObserve : Obligations.TakeInObserve := by
  intro s f rest i e h mode refused observed
  have refuses {r : Reason} (found : (observedFailures f e).find? (enforcedInObserve f.kind) = some r) :
      exec .take s = .next (refused r.code (refusalDetail r f 0)) := by
    rw [h.exec_take.2 mode, State.admitObserve_refused found, h.refuse_unchanged]
  have enforced := observedFailures_enforced f e
  refine ⟨fun request unpolled => ?_, fun grant denied => ?_, fun polled token => ?_⟩
  · rw [if_pos ⟨request, unpolled⟩] at enforced
    exact refuses (r := .notPolled) enforced
  · rw [if_neg (by simp [grant]), if_pos ⟨grant, denied⟩] at enforced
    exact refuses (r := .tokenDenied) enforced
  · rw [if_neg (fun fails => by simp [polled fails.1] at fails),
      if_neg (fun fails => fails.2.elim (by simp [(token fails.1).1]) (token fails.1).2)] at enforced
    have records {r : Reason} {l : List Reason} (first : observedFailures f e = r :: l) :
        exec .take s = .next (observed r.code) := by
      rw [h.exec_take.2 mode, State.admitObserve_recorded enforced first, State.recordRefusal, State.post_eq,
        State.modifyEntry_eq (s := s.reserving rest) h.entry]
      exact congrArg _ (h.forward _ false _)
    refine ⟨fun disabled => ?_, fun able send unpolled => ?_, fun able kind polled long => ?_⟩
    · exact records (r := .disabled) (by simp only [observedFailures, checkAdmin_some disabled]; rfl)
    · exact records (r := .notPolled)
        (by simp only [observedFailures, checkAdmin_none able, checkClass, send, unpolled]; rfl)
    · have noClass : checkClass f.kind e = none := by
        cases hk : f.kind <;> simp_all [checkClass]
      have size : checkSize f e = some .requestTooLong := by
        cases hk : f.kind <;> simp_all [checkSize]
      exact records (r := .requestTooLong)
        (by simp only [observedFailures, checkAdmin_none able, noClass, size]; rfl)

end Sys2Proof.Machine
end

section
/-! SUPPORT. Management: the policy, the table, the events and ABANDON (R14 to R24, R146, R164 to R185). -/

namespace Sys2Proof.Machine

/-! ### The policy -/

/-- A Policy Record is read from 14 characters alone (R172, R193). -/
theorem readPolicyRecord_length {args : List Byte} {p : Policy} (h : readPolicyRecord args = some p) :
    args.length + 1 = 15 := by
  unfold readPolicyRecord at h
  split at h
  · rfl
  · exact nomatch h

/-- Settles O48: the state decides before the record is read, and the first failed check before the write. -/
theorem policyReadAndChecked : Obligations.PolicyReadAndChecked := by
  refine ⟨fun s h => ?_, fun s args p h read => ⟨fun run => ?_, fun drain => ?_, fun code status standby fails => ?_⟩⟩
  · have read := h.outcome (len := 1) (act := fun s _ => (s, Reply.ok s.policy.bytes)) rfl rfl h.works
    refine Eq.trans read ?_
    have bytes : s.policy.bytes = [s.policy.gateAddress, s.policy.gapTime] ++ halfBytes s.policy.jabberLimit ++
        [s.policy.strikeThreshold, s.policy.probeInterval, if s.policy.broadcastAllowed = true then 1 else 0,
         if s.policy.mode = .enforce then 0 else 1, if s.policy.uplinkRate.mode = .normal then 0 else 1] ++
        halfBytes s.policy.uplinkRate.step ++ [if s.policy.segmentRate.mode = .normal then 0 else 1] ++
        halfBytes s.policy.segmentRate.step := by
      have mode (m : Mode) : m.byte = if m = .enforce then 0 else 1 := by cases m <;> rfl
      have rate (m : RateMode) : m.byte = if m = .normal then 0 else 1 := by cases m <;> rfl
      rw [Policy.bytes, flagByte_eq, mode, rate, rate]
    rw [← bytes]
    rfl
  · have act : writePolicyAct s args = (s, Reply.plain .wrongState 1) := by
      rw [writePolicyAct, if_neg (by simp [run]), run]
      rfl
    exact h.outcome (readPolicyRecord_length read) act h.works
  · have act : writePolicyAct s args = (s, Reply.plain .wrongState 2) := by
      rw [writePolicyAct, if_neg (by simp [drain]), drain]
      rfl
    exact h.outcome (readPolicyRecord_length read) act h.works
  · obtain ⟨c, first, rfl, rfl⟩ := firstFailure_some (policyRules_eq s.table p) fails
    have act : writePolicyAct s args = (s, Reply.plain c.status (codeDetail c.code)) := by
      simp only [writePolicyAct, if_pos standby, read, first]
    exact h.outcome (readPolicyRecord_length read) act h.works

/-- The events of a policy write, in either order, and the entry into MUTED of a lowered limit (R144, R165, R166;
log 11). -/
theorem State.postWritten_eq {w : State} (idle : w.engagement = none) (released : List (Fin 64 × Byte)) :
    let jabber := if w.jabberPassed = true then [w.eventNow .jabber none none 0] else []
    let freed := released.map fun r => w.eventNow .released (some r.1) (some r.2) 2
    ∃ free records, (records = jabber ++ freed ∨ records = freed ++ jabber) ∧
      w.postWritten released = State.posting
        (if w.jabberPassed = true then { w with freeCount := free }.cutOff .muted else { w with freeCount := free })
        records := by
  intro jabber freed
  have counted : ({ w with freeCount := w.freeCount + 1 } : State).engagement = none := idle
  by_cases passed : w.jabberPassed = true
  · have one : jabber = [w.eventNow .jabber none none 0] := if_pos passed
    simp only [State.postWritten, if_pos passed, one]
    cases released with
    | nil => exact ⟨w.freeCount, _, .inl rfl, State.enterMuted_idle idle⟩
    | cons r rest =>
      by_cases first : Config.firstTaken w.freeCount % 2 = 0
      · refine ⟨w.freeCount + 1, _, .inl rfl, ?_⟩
        simp only [if_pos first, State.enterMuted_idle counted, State.postReleased_eq, ← State.posting_posting]
        rfl
      · refine ⟨w.freeCount + 1, _, .inr rfl, ?_⟩
        simp only [if_neg first, State.postReleased_eq, ← State.posting_posting]
        exact State.enterMuted_idle (by exact idle)
  · have silent : jabber = [] := if_neg passed
    refine ⟨w.freeCount, freed, .inl (by rw [silent]; rfl), ?_⟩
    simp only [State.postWritten, if_neg passed, State.postReleased_eq]
    rfl

/-- A MUTED receiver leaves MUTED where the line is quiet (R47, R165). -/
theorem State.requiet_eq (s : State) : s.requiet = { s with
    segment := { s.segment with
      state := if s.policy.gapTime.toNat ≤ s.segment.silence ∧ s.segment.state = .muted then .lineIdle
        else s.segment.state } } := by
  by_cases quiet : s.policy.gapTime.toNat ≤ s.segment.silence
  · have line : s.lineQuiet = true := decide_eq_true quiet
    rw [State.requiet, if_pos line, ReceiverState.unmute_eq]
    simp only [quiet, true_and]
  · have line : ¬ s.lineQuiet = true := by rw [State.lineQuiet, decide_eq_true_eq]; exact quiet
    rw [State.requiet, if_neg line, if_neg (fun h => quiet h.1)]

/-- The receiver frames in STANDBY exactly beside a transmitter that leaves it the line, and unmuted; the run has passed
the limit (R45, R49). -/
theorem State.jabberPassed_iff {s : State} (hw : s.works = true) : s.jabberPassed = true ↔
    s.transmitter.holdsLine = false ∧ s.segment.state ≠ .muted ∧ s.policy.jabberLimit.toNat < s.segment.activity := by
  simp [State.jabberPassed, State.segmentFrames, hw, and_assoc]

/-- The reply to a WRITE_POLICY that passes its checks (R164, R167). -/
theorem RequestReady.writePolicy_applied {s : State} {args : List Byte} {p : Policy} (h : RequestReady s 5 args)
    (read : readPolicyRecord args = some p) (standby : s.device = .standby) (rules : AllHold (policyRules s.table p))
    {t : State} (applied : s.applyPolicy p = t) (hw : t.works = true) :
    exec .writePolicy s = .next (t.replying 5 0 0 []
      (if s.policy.uplinkRate = p.uplinkRate then none else some (.uplinkRate p.uplinkRate))) := by
  have act : writePolicyAct s args =
      (t, { status := .ok, detail := 0, results := [], mark := rateMark s.policy p }) := by
    simp only [writePolicyAct, if_pos standby, read, firstFailure_none (policyRules_eq s.table p) rules, applied]
  exact h.outcome (readPolicyRecord_length read) act hw

/-- Settles O49: the counters, the record, the receiver, then the events. -/
theorem policyWritten : Obligations.PolicyWritten := by
  intro s args p h read standby idle rules counted receiver jabbers jabber
  let table : Table := s.table.mapEntries fun e => e.underPolicy s.policy p
  have entries (i : Fin 64) : table.get i = (s.table.get i).map fun e => e.repoliced s.policy p := by
    rw [Table.get_mapEntries]
    exact congrArg (Option.map · _) (funext fun e => e.underPolicy_eq s.policy p)
  let rewritten : State := { counted with
    policy := p
    table := table
    segmentRate := if s.policy.segmentRate = p.segmentRate then s.segmentRate else p.segmentRate
    segment := { counted.segment with state := receiver } }
  have requiet : ((s.recount p).replacePolicy p).requiet = rewritten := by
    rw [State.requiet_eq, State.recount_eq]
    rfl
  have works : rewritten.works = true := standby_works standby
  have passed : rewritten.jabberPassed = true ↔ jabbers := State.jabberPassed_iff works
  obtain ⟨free, records, order, written⟩ := State.postWritten_eq (w := rewritten) idle (s.releasedBy p)
  have freed : (s.releasedBy p).map (fun r => rewritten.eventNow .released (some r.1) (some r.2) 2) =
      s.releasedRecords p := s.releasedRecords_eq p
  simp only [passed, freed] at order written
  refine ⟨table, entries, free, records, order, ?_⟩
  refine h.writePolicy_applied read standby rules ?_ ?_
  · rw [State.applyPolicy, requiet, written]
  · show State.works (State.posting _ records) = true
    split <;> exact works

/-! ### Writes to the table -/

/-- A WRITE_ENTRY as its characters are read (R178, R192). -/
theorem readConfiguration_eq (outer inner admin polled token maxRequest maxResponse d1 d0 c1 c0 divider : Byte) :
    readConfiguration [outer, inner, admin, polled, token, maxRequest, maxResponse, d1, d0, c1, c0, divider] =
      some { outer := outer, inner := inner, admin := if admin = 0 then .disabled else .enabled,
             polled := decide (polled ≠ 0), token := decide (token ≠ 0), maxRequest := maxRequest,
             maxResponse := maxResponse, deadline := half d1 d0, tokenCap := half c1 c0,
             publishDivider := divider } := by
  rw [← readFlag_eq, ← readFlag_eq]
  rfl

/-- Settles O50: the checks of R14, then the write, held or applied. -/
theorem writeEntryActs : Obligations.WriteEntryActs := by
  intro s index outer inner admin polled token maxRequest maxResponse d1 d0 c1 c0 divider h received stored rules
  have read := readConfiguration_eq outer inner admin polled token maxRequest maxResponse d1 d0 c1 c0 divider
  refine ⟨fun code status fails => ?_, fun hold i hi => ?_⟩
  · obtain ⟨c, first, rfl, rfl⟩ := firstFailure_some (entryRules_eq s.table s.policy.gateAddress index received) fails
    have act : writeEntryAct s [index, outer, inner, admin, polled, token, maxRequest, maxResponse, d1, d0, c1, c0,
        divider] = (s, Reply.plain c.status (codeDetail c.code)) := by
      simp only [writeEntryAct, read]
      rw [first]
    exact h.outcome rfl act h.works
  · have passes := firstFailure_none (entryRules_eq s.table s.policy.gateAddress index received) hold
    have kept : received.stored = stored := by
      have absent (b : Byte) {n : Nat} (x : BitVec n) :
          (if decide (b ≠ 0) = true then x else 0) = if b = 0 then 0 else x := by
        by_cases zero : b = 0 <;> simp [zero]
      simp only [Configuration.stored, received, stored, absent]
    have act : writeEntryAct s [index, outer, inner, admin, polled, token, maxRequest, maxResponse, d1, d0, c1, c0,
        divider] = s.writeEntry i stored := by
      simp only [writeEntryAct, read, toIndex_some hi]
      rw [passes, ← kept]
    refine ⟨fun elsewhere => ?_, fun e engaged entry => ?_⟩
    · rw [State.writeEntry, if_neg elsewhere] at act
      exact h.outcome rfl act h.works
    · rw [State.writeEntry, if_pos engaged, State.holdUpdate, State.modifyEntry_eq entry] at act
      exact h.outcome rfl act h.works

/-- Settles O51: by the addresses, then by the change of admin. -/
theorem runtimeFieldsOfWrites : Obligations.RuntimeFieldsOfWrites := by
  intro c interval fresh
  have anew : Entry.fresh c interval = fresh := by
    have status : (match c.admin with | .enabled => Status.enabled | .disabled => .disabled) =
        if c.admin = .enabled then .enabled else .disabled := by cases c.admin <;> rfl
    simp only [fresh, ← status]
    rfl
  refine ⟨anew, fun e => ⟨fun moved => ?_, fun outer inner => ?_⟩⟩
  · rw [applyWrite, if_neg (by tauto), anew]
  · intro enabling disabling
    rw [applyWrite, if_pos ⟨outer, inner⟩, Entry.rewrite]
    obtain ⟨a, old⟩ : ∃ a, e.config.admin = a := ⟨_, rfl⟩
    obtain ⟨b, new⟩ : ∃ b, c.admin = b := ⟨_, rfl⟩
    cases a <;> cases b <;> simp [enabling, disabling, old, new]

/-! ### Reads of the table -/

/-- An n outside 1 to 4 is refused and moves nothing (R181). -/
theorem State.readFrom_refused {n : Byte} (h : n.toNat < 1 ∨ 4 < n.toNat) (s : State) (i : Fin 64) :
    s.readFrom i n = (s, Reply.plain .badValue 0) := if_neg (by omega)

/-- The records read, and the pointer left behind the last (R23, R181). -/
theorem State.readFrom_ok {n : Byte} (low : 1 ≤ n.toNat) (high : n.toNat ≤ 4) (s : State) (i : Fin 64) :
    s.readFrom i n = ({ s with tablePointer := Fin.ofNat 64 (i.val + n.toNat) },
      Reply.ok ((List.range n.toNat).flatMap fun k =>
        entryRecord (Fin.ofNat 64 (i.val + k)) (s.table.get (Fin.ofNat 64 (i.val + k))))) := if_pos ⟨low, high⟩

/-- Settles O53: the index, then the number of records. -/
theorem entriesRead : Obligations.EntriesRead := by
  intro s n records after
  refine ⟨fun v h => ⟨fun high => ?_, fun i hi => ⟨fun outside => ?_, fun low high => ?_⟩⟩,
    fun h => ⟨fun outside => ?_, fun low high => ?_⟩⟩
  · have act : readEntriesAct s [v, n] = (s, Reply.plain .badIndex (codeDetail v)) := by
      simp [readEntriesAct, toIndex_none high]
    exact h.outcome rfl act h.works
  · have act : readEntriesAct s [v, n] = (s, Reply.plain .badValue 0) := by
      simp [readEntriesAct, toIndex_some hi, State.readFrom_refused outside]
    exact h.outcome rfl act h.works
  · have act : readEntriesAct s [v, n] = (after i, Reply.ok (records i)) := by
      simp only [readEntriesAct, List.getD_cons_zero, List.getD_cons_succ, toIndex_some hi,
        State.readFrom_ok low high]
      rfl
    exact h.outcome rfl act h.works
  · exact h.outcome (act := fun s args => s.readFrom s.tablePointer (args.getD 0 0)) rfl
      (State.readFrom_refused outside s s.tablePointer) h.works
  · exact h.outcome (act := fun s args => s.readFrom s.tablePointer (args.getD 0 0)) rfl
      (State.readFrom_ok low high s s.tablePointer) h.works

/-! ### The events -/

/-- Settles O56: the records leave the queue, and with the last of them ATTN falls. -/
theorem takeEventsActs : Obligations.TakeEventsActs := by
  intro s n h
  refine ⟨fun outside => ?_, fun low high => ?_⟩
  · have act : takeEventsAct s [n] = (s, Reply.plain .badValue 0) := if_neg (by
      show ¬ (1 ≤ n.toNat ∧ n.toNat ≤ 8)
      omega)
    exact h.outcome rfl act h.works
  · have act : takeEventsAct s [n] =
        ({ s with events := { records := s.events.records.drop n.toNat, lost := 0 } },
          Reply.ok ((s.events.records.take n.toNat).flatMap EventRecord.bytes ++ [s.events.lost])) :=
      if_pos ⟨low, high⟩
    refine ⟨_, h.outcome rfl act h.works, rfl, fun all => ?_⟩
    show (!(s.events.records.drop n.toNat).isEmpty) = false
    rw [List.drop_eq_nil_of_le all]
    rfl

/-! ### ABANDON -/

/-- ABANDON in an exchange that it closes with an answer (R101, R126). -/
theorem State.abandon_answered {t : State} (hw : t.works = true) {g : Engagement} (hg : t.engagement = some g)
    (d : Half) (answer : UpFrame) (b : Bool) :
    ((t.post .abandoned g.index g.eventOuter d).admitExchange answer).enterSettling b =
      State.settlingFrom (t.answering [t.eventNow .abandoned g.index (g.index.map fun _ => g.outer) d] answer) g b := by
  rw [State.post_eq, Engagement.eventOuter_eq, State.posting_admit t hw]
  exact State.enterSettling_eq (by exact hg) b

/-- ABANDON in SENDING (R86). -/
theorem State.abandonEngagement_sending {s : State} {g : Engagement} (hg : s.engagement = some g)
    (hs : g.state = .sending) : s.abandonEngagement =
      ((s.orderAbort.post .abandoned g.index g.eventOuter 1).answerIfOwed g
        (substitute g.outer .abandoned 1)).enterSettling false := by
  simp only [State.abandonEngagement, hg, hs]
  rfl

/-- ABANDON in AWAITING (R101). -/
theorem State.abandonEngagement_awaiting {s : State} {g : Engagement} (hg : s.engagement = some g)
    (hs : g.state = .awaiting) : s.abandonEngagement =
      ((s.post .abandoned g.index g.eventOuter 2).admitExchange (substitute g.outer .abandoned 2)).enterSettling
        true := by
  simp only [State.abandonEngagement, hg, hs]
  rfl

/-- ABANDON in RECEIVING (R101). -/
theorem State.abandonEngagement_receiving {s : State} {g : Engagement} (hg : s.engagement = some g)
    (hs : g.state = .receiving) : s.abandonEngagement =
      (((s.truncate.post .abandoned g.index g.eventOuter 3).admitExchange
        (substitute g.outer .abandoned 3)).enterSettling true).engineFrameIf s.truncatedReport := by
  simp only [State.abandonEngagement, hg, hs]
  rfl

/-- ABANDON in HOLDING (R126). -/
theorem State.abandonEngagement_holding {s : State} {g : Engagement} (hg : s.engagement = some g)
    (hs : g.state = .holding) : s.abandonEngagement =
      (((s.truncate.post .abandoned g.index g.eventOuter 4).admitExchange
        (returnFrame g.outer true s.token)).enterSettling false).engineFrameIf s.truncatedReport := by
  simp only [State.abandonEngagement, hg, hs]
  rfl

/-- Settles O58: by the state of the Engagement that ABANDON finds. -/
theorem abandonActs : Obligations.AbandonActs := by
  intro s h answered
  have found {t : State} {b : Byte} (code : engagementCode (s.engagement.map Engagement.state) = b)
      (abandoned : s.abandonEngagement = t) : answered t b := by
    have works : t.works = true := abandoned ▸ abandon_works h.works
    have act : ((s.abandonEngagement, Reply.ok [engagementCode (s.engagement.map Engagement.state)]) : State × Reply) =
        (t, Reply.ok [b]) := by rw [abandoned, code]
    exact h.outcome (act := fun s _ => (s.abandonEngagement, Reply.ok [engagementCode (s.engagement.map
      Engagement.state)])) rfl act works
  refine ⟨fun idle => found (by rw [idle]; rfl) (by simp only [State.abandonEngagement, idle]), fun g hg => ?_⟩
  intro event
  have code {st : EngagementState} (hs : g.state = st) :
      engagementCode (s.engagement.map Engagement.state) = engagementCode (some st) := by rw [hg, ← hs]; rfl
  obtain ⟨r, cut⟩ := s.truncated_fields
  refine ⟨fun hs => found (code hs) ?_, fun hs => found (code hs) ?_, fun hs => found (code hs) ?_,
    fun hs => found (code hs) ?_, fun b hs => found (code hs) ?_⟩
  · rw [State.abandonEngagement_sending hg hs]
    exact State.giveUp_eq (t := s.orderAbort) h.works hg .abandoned 1 .abandoned false
  · rw [State.abandonEngagement_awaiting hg hs]
    exact State.abandon_answered h.works hg 2 _ true
  · rw [State.abandonEngagement_receiving hg hs, State.truncate_eq, cut,
      State.abandon_answered (t := { s with segment := r }) h.works hg, State.settlingFrom_report]
    rfl
  · rw [State.abandonEngagement_holding hg hs, State.truncate_eq, cut,
      State.abandon_answered (t := { s with segment := r }) h.works hg, State.settlingFrom_report]
    rfl
  · simp only [State.abandonEngagement, hg, hs]

end Sys2Proof.Machine
end
